-- ==== Sys2Proof/Word.lean ====
section
/-! DEFINITION. The 32-bit word (bus word, command word, RND word) and the operand register number. -/

namespace Sys2Proof

/-- A 32-bit word: a bus data word, a command word, an RND word, a limb (00_scope.md R6, R10). -/
abbrev Word := BitVec 32

/-- The number of an operand register, x0 to x15 (10_state.md R20). -/
abbrev Reg := Fin 16

end Sys2Proof
end

