-- ==== Sys2Proof/Syntax.lean ====
section
/-! DEFINITION. The commands of RNTE: one constructor per row of the opcode table (30_encoding.md R84), the mnemonics and
assembler syntax (R89), and the pseudo-instructions (R90). Operands are listed destination first, then the sources in the
source document's argument order (R84). -/

namespace Sys2Proof

/-- The 25 commands (30_encoding.md R84). `imm` is the number in the field imm16 (R83); `Instr.wf` bounds it. -/
inductive Instr where
  | nop
  | li (rd : Reg) (imm : Nat)
  | mov (rd ra : Reg)
  | add (rd ra rb : Reg)
  | sub (rd ra rb : Reg)
  | mul (rd ra rb : Reg)
  | mod (rd ra rb : Reg)
  | shl (rd ra : Reg) (imm : Nat)
  | shr (rd ra : Reg) (imm : Nat)
  | parity (ra : Reg)
  | cmp (ra rb : Reg)
  | gcd (rd ra rb : Reg)
  | modinv (rd ra rb : Reg)
  | mulmod (rd ra rb rc : Reg)
  | powmod (rd ra rb rc : Reg)
  | montset (ra : Reg)
  | montmul (rd ra rb : Reg)
  | tomont (rd ra : Reg)
  | frommont (rd ra : Reg)
  | barset (ra : Reg)
  | barred (rd ra : Reg)
  | barmul (rd ra rb : Reg)
  | isprime (ra : Reg) (imm : Nat)
  | makeprime (rd ra : Reg) (imm : Nat)
  | rand (rd ra : Reg)
deriving DecidableEq, Repr

/-- The pseudo-instruction `CLR xd` (30_encoding.md R90). -/
def Instr.clr (rd : Reg) : Instr := .li rd 0

/-- The pseudo-instruction `SQRMOD xd, xa, xn` (30_encoding.md R90). -/
def Instr.sqrmod (rd ra rn : Reg) : Instr := .mulmod rd ra ra rn

/-- The pseudo-instruction `MONTSQR xd, xa` (30_encoding.md R90). -/
def Instr.montsqr (rd ra : Reg) : Instr := .montmul rd ra ra

/-- The pseudo-instruction `ENCRYPT xd, xm, xe, xn` (30_encoding.md R90). -/
def Instr.encrypt (rd rm re rn : Reg) : Instr := .powmod rd rm re rn

/-- The pseudo-instruction `DECRYPT xd, xc, xdd, xn` (30_encoding.md R90). -/
def Instr.decrypt (rd rc rdd rn : Reg) : Instr := .powmod rd rc rdd rn

/-- A register in assembler syntax, `x0` to `x15` (30_encoding.md R89). -/
def asmReg (r : Reg) : String := "x" ++ toString r.val

/-- Operands separated by commas, destination first (30_encoding.md R89). -/
def asmLine (mnemonic : String) (operands : List String) : String :=
  if operands = [] then mnemonic else mnemonic ++ " " ++ String.intercalate ", " operands

/-- The assembler line of a command, by the "assembler" column of 30_encoding.md R84, immediates in decimal (R89). -/
def Instr.asm : Instr → String
  | .nop => asmLine "NOP" []
  | .li rd imm => asmLine "LI" [asmReg rd, toString imm]
  | .mov rd ra => asmLine "MOV" [asmReg rd, asmReg ra]
  | .add rd ra rb => asmLine "ADD" [asmReg rd, asmReg ra, asmReg rb]
  | .sub rd ra rb => asmLine "SUB" [asmReg rd, asmReg ra, asmReg rb]
  | .mul rd ra rb => asmLine "MUL" [asmReg rd, asmReg ra, asmReg rb]
  | .mod rd ra rb => asmLine "MOD" [asmReg rd, asmReg ra, asmReg rb]
  | .shl rd ra imm => asmLine "SHL" [asmReg rd, asmReg ra, toString imm]
  | .shr rd ra imm => asmLine "SHR" [asmReg rd, asmReg ra, toString imm]
  | .parity ra => asmLine "PARITY" [asmReg ra]
  | .cmp ra rb => asmLine "CMP" [asmReg ra, asmReg rb]
  | .gcd rd ra rb => asmLine "GCD" [asmReg rd, asmReg ra, asmReg rb]
  | .modinv rd ra rb => asmLine "MODINV" [asmReg rd, asmReg ra, asmReg rb]
  | .mulmod rd ra rb rc => asmLine "MULMOD" [asmReg rd, asmReg ra, asmReg rb, asmReg rc]
  | .powmod rd ra rb rc => asmLine "POWMOD" [asmReg rd, asmReg ra, asmReg rb, asmReg rc]
  | .montset ra => asmLine "MONTSET" [asmReg ra]
  | .montmul rd ra rb => asmLine "MONTMUL" [asmReg rd, asmReg ra, asmReg rb]
  | .tomont rd ra => asmLine "TOMONT" [asmReg rd, asmReg ra]
  | .frommont rd ra => asmLine "FROMMONT" [asmReg rd, asmReg ra]
  | .barset ra => asmLine "BARSET" [asmReg ra]
  | .barred rd ra => asmLine "BARRED" [asmReg rd, asmReg ra]
  | .barmul rd ra rb => asmLine "BARMUL" [asmReg rd, asmReg ra, asmReg rb]
  | .isprime ra imm => asmLine "ISPRIME" [asmReg ra, toString imm]
  | .makeprime rd ra imm => asmLine "MAKEPRIME" [asmReg rd, asmReg ra, toString imm]
  | .rand rd ra => asmLine "RAND" [asmReg rd, asmReg ra]

end Sys2Proof
end

