-- ==== Sys2Proof/WellFormed.lean ====
section
/-! DEFINITION. Which terms of `Instr` are commands: an immediate is a number of the field imm16, 0 to 65535
(30_encoding.md R82, R83). Register numbers are 0 to 15 by their type. -/

namespace Sys2Proof

/-- All 65536 values of imm16 are legal, and no other number is an imm16 (30_encoding.md R82). -/
def immOk (imm : Nat) : Bool := decide (imm < 65536)

/-- A well-formed command: its immediate, if it has one, fits the field imm16 (30_encoding.md R82). -/
def Instr.wf : Instr → Bool
  | .nop => true
  | .li _ imm => immOk imm
  | .mov _ _ => true
  | .add _ _ _ => true
  | .sub _ _ _ => true
  | .mul _ _ _ => true
  | .mod _ _ _ => true
  | .shl _ _ imm => immOk imm
  | .shr _ _ imm => immOk imm
  | .parity _ => true
  | .cmp _ _ => true
  | .gcd _ _ _ => true
  | .modinv _ _ _ => true
  | .mulmod _ _ _ _ => true
  | .powmod _ _ _ _ => true
  | .montset _ => true
  | .montmul _ _ _ => true
  | .tomont _ _ => true
  | .frommont _ _ => true
  | .barset _ => true
  | .barred _ _ => true
  | .barmul _ _ _ => true
  | .isprime _ imm => immOk imm
  | .makeprime _ _ imm => immOk imm
  | .rand _ _ => true

end Sys2Proof
end

