-- ==== Sys2Proof/Decode.lean ====
section
/-! DEFINITION. The decoder, total on 32-bit words (30_encoding.md R83, R84, R86), rejecting by name, and after it the encoder
(R81, R82). A command word has no byte structure (20_memory.md R60), so the decoder reads the word itself. -/

namespace Sys2Proof

/-- Why a word is no command; execution of either kind raises ILLEGAL (30_encoding.md R86, 60_exceptions.md R201). -/
inductive Reject where
  /-- The opcode, bits 31:24, is none of the 25 of R84. -/
  | unassignedOpcode
  /-- A field the command does not use, or `zero` in format R, is not 0. -/
  | unusedFieldNotZero
deriving DecidableEq, Repr

/-- The opcode, bits 31:24 (30_encoding.md R80). -/
def opcodeOf (w : Word) : Nat := (w >>> 24).toNat

/-- The register number in the four bits of `w` that begin at bit `lo` (30_encoding.md R83). -/
def regAt (lo : Nat) (w : Word) : Reg := ⟨(w >>> lo).toNat % 16, Nat.mod_lt _ (by decide)⟩

/-- Field `rd`, bits 23:20. -/
def rdOf (w : Word) : Reg := regAt 20 w
/-- Field `ra`, bits 19:16. -/
def raOf (w : Word) : Reg := regAt 16 w
/-- Field `rb`, bits 15:12. -/
def rbOf (w : Word) : Reg := regAt 12 w
/-- Field `rc`, bits 11:8. -/
def rcOf (w : Word) : Reg := regAt 8 w

/-- Field `imm16`, bits 15:0, an unsigned number (30_encoding.md R83). -/
def immOf (w : Word) : Nat := w.toNat % 65536

/-- A row's test `w & mask = match` (30_encoding.md R84, R86). -/
def row (w mask mtch : Word) (i : Instr) : Except Reject Instr :=
  if w &&& mask = mtch then .ok i else .error .unusedFieldNotZero

/-- `Decode(w)` of 30_encoding.md R86: take the row of the opcode, test its mask and match, read its fields. -/
def decode (w : Word) : Except Reject Instr :=
  match opcodeOf w with
  | 0x00 => row w 0xFFFFFFFF 0x00000000 .nop
  | 0x01 => row w 0xFF0F0000 0x01000000 (.li (rdOf w) (immOf w))
  | 0x02 => row w 0xFF00FFFF 0x02000000 (.mov (rdOf w) (raOf w))
  | 0x10 => row w 0xFF000FFF 0x10000000 (.add (rdOf w) (raOf w) (rbOf w))
  | 0x11 => row w 0xFF000FFF 0x11000000 (.sub (rdOf w) (raOf w) (rbOf w))
  | 0x12 => row w 0xFF000FFF 0x12000000 (.mul (rdOf w) (raOf w) (rbOf w))
  | 0x13 => row w 0xFF000FFF 0x13000000 (.mod (rdOf w) (raOf w) (rbOf w))
  | 0x14 => row w 0xFF000000 0x14000000 (.shl (rdOf w) (raOf w) (immOf w))
  | 0x15 => row w 0xFF000000 0x15000000 (.shr (rdOf w) (raOf w) (immOf w))
  | 0x16 => row w 0xFFF0FFFF 0x16000000 (.parity (raOf w))
  | 0x17 => row w 0xFFF00FFF 0x17000000 (.cmp (raOf w) (rbOf w))
  | 0x20 => row w 0xFF000FFF 0x20000000 (.gcd (rdOf w) (raOf w) (rbOf w))
  | 0x21 => row w 0xFF000FFF 0x21000000 (.modinv (rdOf w) (raOf w) (rbOf w))
  | 0x22 => row w 0xFF0000FF 0x22000000 (.mulmod (rdOf w) (raOf w) (rbOf w) (rcOf w))
  | 0x23 => row w 0xFF0000FF 0x23000000 (.powmod (rdOf w) (raOf w) (rbOf w) (rcOf w))
  | 0x30 => row w 0xFFF0FFFF 0x30000000 (.montset (raOf w))
  | 0x31 => row w 0xFF000FFF 0x31000000 (.montmul (rdOf w) (raOf w) (rbOf w))
  | 0x32 => row w 0xFF00FFFF 0x32000000 (.tomont (rdOf w) (raOf w))
  | 0x33 => row w 0xFF00FFFF 0x33000000 (.frommont (rdOf w) (raOf w))
  | 0x38 => row w 0xFFF0FFFF 0x38000000 (.barset (raOf w))
  | 0x39 => row w 0xFF00FFFF 0x39000000 (.barred (rdOf w) (raOf w))
  | 0x3A => row w 0xFF000FFF 0x3A000000 (.barmul (rdOf w) (raOf w) (rbOf w))
  | 0x40 => row w 0xFFF00000 0x40000000 (.isprime (raOf w) (immOf w))
  | 0x41 => row w 0xFF000000 0x41000000 (.makeprime (rdOf w) (raOf w) (immOf w))
  | 0x42 => row w 0xFF00FFFF 0x42000000 (.rand (rdOf w) (raOf w))
  | _ => .error .unassignedOpcode

/-- The value of a format R word, `op<<24 | rd<<20 | ra<<16 | rb<<12 | rc<<8` (30_encoding.md R81). -/
def formatR (op : Word) (rd ra rb rc : Reg) : Word :=
  op <<< 24 ||| BitVec.ofNat 32 rd <<< 20 ||| BitVec.ofNat 32 ra <<< 16 ||| BitVec.ofNat 32 rb <<< 12
    ||| BitVec.ofNat 32 rc <<< 8

/-- The value of a format I word, `op<<24 | rd<<20 | ra<<16 | imm16` (30_encoding.md R82). -/
def formatI (op : Word) (rd ra : Reg) (imm : Nat) : Word :=
  op <<< 24 ||| BitVec.ofNat 32 rd <<< 20 ||| BitVec.ofNat 32 ra <<< 16 ||| BitVec.ofNat 32 imm

/-- The word of a well-formed command, by the formats and opcodes of 30_encoding.md R84 with every unused field 0. -/
def encode : Instr → Word
  | .nop => formatR 0x00 0 0 0 0
  | .li rd imm => formatI 0x01 rd 0 imm
  | .mov rd ra => formatR 0x02 rd ra 0 0
  | .add rd ra rb => formatR 0x10 rd ra rb 0
  | .sub rd ra rb => formatR 0x11 rd ra rb 0
  | .mul rd ra rb => formatR 0x12 rd ra rb 0
  | .mod rd ra rb => formatR 0x13 rd ra rb 0
  | .shl rd ra imm => formatI 0x14 rd ra imm
  | .shr rd ra imm => formatI 0x15 rd ra imm
  | .parity ra => formatR 0x16 0 ra 0 0
  | .cmp ra rb => formatR 0x17 0 ra rb 0
  | .gcd rd ra rb => formatR 0x20 rd ra rb 0
  | .modinv rd ra rb => formatR 0x21 rd ra rb 0
  | .mulmod rd ra rb rc => formatR 0x22 rd ra rb rc
  | .powmod rd ra rb rc => formatR 0x23 rd ra rb rc
  | .montset ra => formatR 0x30 0 ra 0 0
  | .montmul rd ra rb => formatR 0x31 rd ra rb 0
  | .tomont rd ra => formatR 0x32 rd ra 0 0
  | .frommont rd ra => formatR 0x33 rd ra 0 0
  | .barset ra => formatR 0x38 0 ra 0 0
  | .barred rd ra => formatR 0x39 rd ra 0 0
  | .barmul rd ra rb => formatR 0x3A rd ra rb 0
  | .isprime ra imm => formatI 0x40 0 ra imm
  | .makeprime rd ra imm => formatI 0x41 rd ra imm
  | .rand rd ra => formatR 0x42 rd ra 0 0

/-- The row of a command in the opcode table of 30_encoding.md R84: its mask and its match. -/
def tableRow : Instr → Word × Word
  | .nop => (0xFFFFFFFF, 0x00000000)
  | .li _ _ => (0xFF0F0000, 0x01000000)
  | .mov _ _ => (0xFF00FFFF, 0x02000000)
  | .add _ _ _ => (0xFF000FFF, 0x10000000)
  | .sub _ _ _ => (0xFF000FFF, 0x11000000)
  | .mul _ _ _ => (0xFF000FFF, 0x12000000)
  | .mod _ _ _ => (0xFF000FFF, 0x13000000)
  | .shl _ _ _ => (0xFF000000, 0x14000000)
  | .shr _ _ _ => (0xFF000000, 0x15000000)
  | .parity _ => (0xFFF0FFFF, 0x16000000)
  | .cmp _ _ => (0xFFF00FFF, 0x17000000)
  | .gcd _ _ _ => (0xFF000FFF, 0x20000000)
  | .modinv _ _ _ => (0xFF000FFF, 0x21000000)
  | .mulmod _ _ _ _ => (0xFF0000FF, 0x22000000)
  | .powmod _ _ _ _ => (0xFF0000FF, 0x23000000)
  | .montset _ => (0xFFF0FFFF, 0x30000000)
  | .montmul _ _ _ => (0xFF000FFF, 0x31000000)
  | .tomont _ _ => (0xFF00FFFF, 0x32000000)
  | .frommont _ _ => (0xFF00FFFF, 0x33000000)
  | .barset _ => (0xFFF0FFFF, 0x38000000)
  | .barred _ _ => (0xFF00FFFF, 0x39000000)
  | .barmul _ _ _ => (0xFF000FFF, 0x3A000000)
  | .isprime _ _ => (0xFFF00000, 0x40000000)
  | .makeprime _ _ _ => (0xFF000000, 0x41000000)
  | .rand _ _ => (0xFF00FFFF, 0x42000000)

/-- The command the decoder reads from a word of `nbits` bits of the opcode table, the bits above them 0. Bit 0 of the table is
bit 0 of the one command word (30_encoding.md R80). -/
def decodeTableWord (nbits w : Nat) : Option Instr :=
  if nbits ≤ 32 then (decode (BitVec.ofNat 32 (w % 2 ^ nbits))).toOption else none

end Sys2Proof
end

