-- ==== Sys2Proof/Config.lean ====
section
/-! DEFINITION. The parameters of an RNTE (00_scope.md R6; 93_implementation_defined.md U21). The operand width W is open: a
machine's `Config` says how many limbs its registers have, and every claim is made for every legal one. NR = 16 and the 32-bit
limb are fixed. BUS_PROTOCOL, BASE and LATENCY are constants without a body, so every claim holds for every value of them; no
rule uses them (log 16). The parameter RND is the word list in State. -/

namespace Sys2Proof

/-- What an implementation fixes: `limbs` is L, the number of 32-bit limbs of an operand register (00_scope.md R6). -/
structure Config where
  limbs : Nat
deriving DecidableEq, Repr

/-- W, the width in bits of every operand register: `W = 32 * L` (00_scope.md R6). -/
def Config.width (c : Config) : Nat := 32 * c.limbs

/-- `W` is a multiple of 32 with `64 <= W <= 16384`, that is `2 <= L <= 512` (00_scope.md R6). -/
abbrev Config.Legal (c : Config) : Prop := 2 ≤ c.limbs ∧ c.limbs ≤ 512

/-- DESIGN CHOICE (log 1): the configuration `State.reset` names, W = 64, the spec's small reference value (00_scope.md R6).
Unsafe for a claim that rests on this one width; claims are made for every legal configuration. -/
def Config.reference : Config := { limbs := 2 }

/-- BUS_PROTOCOL (00_scope.md R6, 20_memory.md R51): which signal-level bus carries the transactions, by its name. Any value. -/
opaque Config.busProtocol : String

/-- Which of the platform's blocks of 0x40000 bytes holds the register map: BASE in its own unit, since BASE is aligned to
0x40000 (92_eei_decisions.md, open parameters). Any value. -/
opaque Config.baseBlock : Nat

/-- BASE (00_scope.md R6): the platform address at which the register map is placed. -/
def Config.base : Nat := 0x40000 * Config.baseBlock

/-- The platform address of a byte offset of the register map (20_memory.md R55). No rule uses it: an `Access` carries the
offset, which is the low 18 bits of this address. -/
def Config.platformAddress (offset : Nat) : Nat := Config.base + offset

/-- LATENCY (00_scope.md R6, 92_eei_decisions.md D32): the duration of a command on the values of its source operands. Any
value, and no rule uses it: the model has no time (70_reset_and_hazards.md R245). -/
opaque Config.latency : Instr → List Nat → Nat

end Sys2Proof
end

