-- ==== Sys2Proof/Machine/State.lean ====
section
/-! DEFINITION. The state of RNTE (10_state.md), of the agents that act on it (00_scope.md R9), and the reasons a step can stop.
Plain data throughout. Registers that hold numbers are `Nat`; that they stay below their width is the invariant `Inv` of
Safety.lean (10_state.md R20, R31, R32; 00_scope.md R7; log 12). -/

namespace Sys2Proof.Machine

/-- A host access to the register map, `MemRead(addr, n)` or `MemWrite(addr, n, v)` (20_memory.md R51). -/
inductive Access where
  | read (addr n : Nat)
  | write (addr n : Nat) (v : Word)
deriving DecidableEq, Repr

/-- What an access returns to the host (20_memory.md R51 to R53). -/
inductive BusReply where
  /-- A read succeeded with this data. -/
  | readOk (v : Word)
  /-- A write completed ok. -/
  | writeOk
  /-- `BusError`. -/
  | busError
  /-- DEDUCED (log 8): the address is at or above 0x40000, so RNTE does not see the access and answers nothing
  (20_memory.md R59). Safe: what the platform answers is left unsaid. -/
  | notSeen
deriving DecidableEq, Repr

/-- One move of an agent (00_scope.md R9). DESIGN CHOICE (log 2): the order in which the agents move is data, the list `turns`
of State. Safe: every order is some list, and claims hold for every list. -/
inductive Turn where
  /-- The host makes one access. -/
  | host (a : Access)
  /-- The RND source gets one more word ready (20_memory.md R66). -/
  | deliver (w : Word)
  /-- The platform pulses `rst` (70_reset_and_hazards.md R230). -/
  | rst
  /-- The engine makes one step (00_scope.md R9). -/
  | engine
  /-- The host waits for BUSY = 0 (30_encoding.md R89): while BUSY = 1 the engine moves and the turn stays. DESIGN CHOICE
  (log 6), safe: it only writes as one turn as many engine turns as the command in flight takes. -/
  | waitIdle
deriving DecidableEq, Repr

/-- Stuck states: no agent has an enabled step. RNTE itself has no other stop: a command error is a next state
(60_exceptions.md R202) and a bus error is a reply (R206). -/
inductive Fault where
  /-- Raised by a draw step of ISPRIME, MAKEPRIME or RAND when the RND source has no word: the engine has no enabled step
  (70_reset_and_hazards.md R238, 93_implementation_defined.md U10). Safe: the machine stays in the state before. -/
  | rndHold
  /-- Raised by `step` when the engine is to move while BUSY = 0: an idle RNTE has no engine step (60_exceptions.md R217).
  Safe: the machine stays in the state before. -/
  | idle
deriving DecidableEq, Repr

/-- Refusals. No meaning refuses: every command of the table has its meaning. -/
inductive Refusal where
  /-- Raised by an arm of `exec` whose command has no meaning yet (none has it now). Safe. -/
  | notModelled (mnemonic : String)
deriving DecidableEq, Repr

/-- The whole state. -/
structure State where
  /-- The configuration: L, read in CONFIG (10_state.md R28). No step changes it. -/
  cfg : Config
  /-- Operand registers x0 to x15 (R20). -/
  x : Vector Nat 16
  /-- EQ, STATUS bit 8 (R22). -/
  flagEq : Bool
  /-- LT, STATUS bit 9 (R22). -/
  flagLt : Bool
  /-- ODD, STATUS bit 10 (R22). -/
  flagOdd : Bool
  /-- PRIME, STATUS bit 11 (R22). -/
  flagPrime : Bool
  /-- NONE, STATUS bit 12 (R22). -/
  flagNone : Bool
  /-- BUSY, STATUS bit 0 (R23): a command is in flight. -/
  busy : Bool
  /-- DONE, STATUS bit 1 (R23), the pending interrupt (60_exceptions.md R210). -/
  done : Bool
  /-- ERR, STATUS bit 2 (R23). -/
  err : Bool
  /-- OVR, STATUS bit 3 (R23). -/
  ovr : Bool
  /-- IE, CTRL bit 0 (R25). -/
  ie : Bool
  /-- CMD, the most recently accepted command word (R24). -/
  cmd : Word
  /-- CODE, ERRCODE bits 7:0 (R26). -/
  errcode : BitVec 8
  /-- RNDCNT, the RND words drawn since reset, modulo 2^32 (R27). -/
  rndcnt : Word
  /-- MVALID, STATUS bit 16 (R31). -/
  mvalid : Bool
  /-- MN, the Montgomery modulus (R31). -/
  mn : Nat
  /-- MNP, read in MONTNP (R29). -/
  mnp : Word
  /-- MR2 (R31). -/
  mr2 : Nat
  /-- BVALID, STATUS bit 17 (R32). -/
  bvalid : Bool
  /-- BN, the Barrett modulus (R32). -/
  bn : Nat
  /-- BK, read in BARK, 16 bits (R30). -/
  bk : Nat
  /-- BMU, W + 32 bits (R32). -/
  bmu : Nat
  /-- The words the command in flight has drawn, first word first. They and the operands determine every internal temporary
  (R36), so they stand for them. DEDUCED (log 5), safe: not observable. -/
  drawn : List Word
  /-- The words the RND source has ready, first word first (R35, 46_miller_rabin.md R176). Not RNTE's state (log 4). -/
  rnd : List Word
  /-- The moves still to come (log 2). Not RNTE's state. -/
  turns : List Turn
  /-- What the last host access returned (log 7). Not RNTE's state. -/
  reply : Option BusReply
deriving DecidableEq, Repr

/-- What one step answers. -/
abbrev Result := Host.Outcome State Fault Refusal

/-- W, the width of an operand register (00_scope.md R6). -/
def State.width (s : State) : Nat := s.cfg.width

/-- A machine of configuration `c` right after reset: 10_state.md R34, every register at the value given there. The
environment's fields (log 2, 4, 7) are empty. -/
def State.resetOf (c : Config) : State where
  cfg := c
  x := Vector.replicate 16 0
  flagEq := false
  flagLt := false
  flagOdd := false
  flagPrime := false
  flagNone := false
  busy := false
  done := false
  err := false
  ovr := false
  ie := false
  cmd := 0x00000000
  errcode := 0x00
  rndcnt := 0x00000000
  mvalid := false
  mn := 0
  mnp := 0
  mr2 := 0
  bvalid := false
  bn := 0
  bk := 0
  bmu := 0
  drawn := []
  rnd := []
  turns := []
  reply := none

/-- The machine of the reference configuration W = 64 (log 1) right after reset (10_state.md R34). -/
def State.reset : State := State.resetOf Config.reference

end Sys2Proof.Machine
end

