-- ==== Sys2Proof/Machine/Operands.lean ====
section
/-! DEFINITION. The operand forms of RNTE: a register, an immediate, a limb of a register (30_encoding.md R83, 00_scope.md R10),
and the notation `bitlen` (R10). There is no memory operand, register pair or implicit register (R83). -/

namespace Sys2Proof.Machine

/-- `x[i]` as a source (00_scope.md R11). -/
def State.reg (s : State) (i : Reg) : Nat := s.x[i]

/-- `x[i] <- v` (00_scope.md R11). All 16 registers are equal, none hard-wired (10_state.md R20). -/
def State.setReg (s : State) (i : Reg) (v : Nat) : State := { s with x := s.x.set i v }

/-- `zext_W(imm16)`: the immediate as a register value (30_encoding.md R83). -/
def zextImm (imm : Nat) : Nat := imm

/-- `bitlen(v)`: 0 for 0, else the k with `2^(k-1) <= v < 2^k` (00_scope.md R10). -/
def bitlen (v : Nat) : Nat := if v = 0 then 0 else Nat.log2 v + 1

/-- Limb j of v, `v[32j+31:32j]` (00_scope.md R10). -/
def limb (v j : Nat) : Word := BitVec.ofNat 32 (v / 2 ^ (32 * j))

/-- v with bits `[32j+31:32j]` replaced by w (20_memory.md R56). -/
def setLimb (v j : Nat) (w : Word) : Nat :=
  v / 2 ^ (32 * (j + 1)) * 2 ^ (32 * (j + 1)) + w.toNat * 2 ^ (32 * j) + v % 2 ^ (32 * j)

end Sys2Proof.Machine
end

