-- ==== Sys2Proof/Machine/Flags.lean ====
section
/-! DEFINITION. The five result flags (10_state.md R22), the STATUS word (R23) and the interrupt output (60_exceptions.md R210). -/

namespace Sys2Proof.Machine

/-- `EQ <- (a = b)`, `LT <- (a < b)`, unsigned (41_integer_arithmetic.md R118). -/
def State.setCompare (s : State) (a b : Nat) : State :=
  { s with flagEq := decide (a = b), flagLt := decide (a < b) }

/-- `ODD <- a[0]` (41_integer_arithmetic.md R117). -/
def State.setOdd (s : State) (a : Nat) : State := { s with flagOdd := decide (a % 2 = 1) }

/-- `PRIME <- b` (10_state.md R22). -/
def State.setPrime (s : State) (b : Bool) : State := { s with flagPrime := b }

/-- `NONE <- b` (10_state.md R22). -/
def State.setNone (s : State) (b : Bool) : State := { s with flagNone := b }

/-- Bit k of a word, set to b. -/
def bitAt (b : Bool) (k : Nat) : Word := BitVec.ofNat 32 b.toNat <<< k

/-- The STATUS register: the fields of 10_state.md R23 at their places, reserved bits 0. -/
def State.statusWord (s : State) : Word :=
  bitAt s.busy 0 ||| bitAt s.done 1 ||| bitAt s.err 2 ||| bitAt s.ovr 3
    ||| bitAt s.flagEq 8 ||| bitAt s.flagLt 9 ||| bitAt s.flagOdd 10 ||| bitAt s.flagPrime 11 ||| bitAt s.flagNone 12
    ||| bitAt s.mvalid 16 ||| bitAt s.bvalid 17

/-- `irq = DONE and IE`, level-sensitive (60_exceptions.md R210). DEDUCED (log 17), safe: an output, not a register. -/
def State.irq (s : State) : Bool := s.done && s.ie

end Sys2Proof.Machine
end

