-- ==== Sys2Proof/Machine/Ops.lean ====
section
/-! DEFINITION. The shared operations of the command life cycle (10_state.md R40 to R43): acceptance, the complete step without
and with error (taking an error, 60_exceptions.md R202), the draw step (R27, 46_miller_rabin.md R176), reset
(70_reset_and_hazards.md R230). There is no return from an error: after the complete step RNTE is idle, and the next
acceptance clears ERR and ERRCODE (60_exceptions.md R205). -/

namespace Sys2Proof.Machine

/-- The error kinds (60_exceptions.md R201). -/
inductive Err where
  /-- the command word is not a command -/
  | illegal
  /-- the modulus operand is 0 -/
  | zeroMod
  /-- the modulus given to the Montgomery unit is even and not 0 -/
  | evenMod
  /-- the unit context the command needs is not valid -/
  | noCtx
  /-- an operand is outside the unit's input range -/
  | range
  /-- the exact result is >= 2^W -/
  | overflow
  /-- the exact result is below 0 -/
  | negative
  /-- a bit count is out of range -/
  | param
deriving DecidableEq, Repr

/-- `code(E)` (60_exceptions.md R201). -/
def Err.code : Err → BitVec 8
  | .illegal => 0x01
  | .zeroMod => 0x02
  | .evenMod => 0x03
  | .noCtx => 0x04
  | .range => 0x05
  | .overflow => 0x06
  | .negative => 0x07
  | .param => 0x08

/-- Acceptance of the word w (10_state.md R40). The command has drawn nothing yet. -/
def State.accept (s : State) (w : Word) : State :=
  { s with cmd := w, busy := true, done := false, err := false, errcode := 0x00, drawn := [] }

/-- The complete step's own writes when evaluation ended without error (10_state.md R42). The internal temporaries do not
survive the command (R36). -/
def State.finish (s : State) : State := { s with busy := false, done := true, drawn := [] }

/-- Taking an error: the complete step of `raise E` (10_state.md R42, 60_exceptions.md R202). -/
def State.raise (s : State) (e : Err) : State :=
  { s with err := true, errcode := e.code, busy := false, done := true, drawn := [] }

/-- The command ends here without error; `s` already holds the rule's writes (10_state.md R42). -/
def complete (s : State) : Result := .next s.finish

/-- `raise E` (00_scope.md R11): the command ends in error; `s` is the state at acceptance, so nothing of it is written. -/
def raiseError (e : Err) (s : State) : Result := .next (s.raise e)

/-- The exactness law (41_integer_arithmetic.md R110): a result below 2^W is written, any other raises OVERFLOW. -/
def writeExact (rd : Reg) (v : Nat) (s : State) : Result :=
  if v < 2 ^ s.width then complete (s.setReg rd v) else raiseError .overflow s

/-- `if modulus = 0 then raise ZEROMOD`, before what the command does with it (60_exceptions.md R201). -/
def withModulus (n : Nat) (s : State) (k : State → Result) : Result :=
  if n = 0 then raiseError .zeroMod s else k s

/-- One draw step (46_miller_rabin.md R176): the next RND word is taken and RNDCNT counts it, wrapping (10_state.md R27). With
no word the engine holds (70_reset_and_hazards.md R238). -/
def drawWord (s : State) : Result :=
  match s.rnd with
  | [] => .fault .rndHold
  | w :: ws => .next { s with rnd := ws, drawn := s.drawn ++ [w], rndcnt := s.rndcnt + 1 }

/-- The engine's step of a command that draws. `o` is the evaluation of the command's pseudocode on the words drawn so far:
`none` where it asks for one more word, and then the step is that draw (10_state.md R41). -/
def drawing {α : Type} (o : Option (α × List Word)) (s : State) (k : α → Result) : Result :=
  match o with
  | none => drawWord s
  | some (a, _) => k a

/-- Reset (70_reset_and_hazards.md R230, R231): every register at its value of 10_state.md R34, the command in flight
discarded. CONFIG is constant (R34), and the RND source, the moves to come and the host's last reply are not RNTE's
(R35; log 18). -/
def State.rst (s : State) : State :=
  { State.resetOf s.cfg with rnd := s.rnd, turns := s.turns, reply := s.reply }

end Sys2Proof.Machine
end

