-- ==== Sys2Proof/Machine/Bus.lean ====
section
/-! DEFINITION. The host interface (20_memory.md): the register map (R55), reads (R52) and writes (R53). -/

namespace Sys2Proof.Machine

/-- A mapped location of the register map (20_memory.md R55). -/
inductive Loc where
  | cmd | status | ctrl | errcode | rndcnt | config | montnp | bark
  /-- limb j of x[i] (R56) -/
  | operand (i : Reg) (j : Nat)
  /-- limb j of a context register (R57) -/
  | mnLimb (j : Nat) | mr2Limb (j : Nat) | bnLimb (j : Nat) | bmuLimb (j : Nat)
deriving DecidableEq, Repr

/-- What lies beyond the eight control registers is a window (20_memory.md R55). -/
def Loc.isWindow : Loc → Bool
  | .cmd | .status | .ctrl | .errcode | .rndcnt | .config | .montnp | .bark => false
  | .operand _ _ | .mnLimb _ | .mr2Limb _ | .bnLimb _ | .bmuLimb _ => true

/-- The slot of 0x1000 bytes at base, of which the first `limbs` words are mapped (20_memory.md R55). -/
def slot (limbs base addr : Nat) (mk : Nat → Loc) : Option Loc :=
  if (addr - base) / 4 < limbs then some (mk ((addr - base) / 4)) else none

/-- The map of 20_memory.md R55 for a machine of L limbs, at an address that is a multiple of 4. -/
def locate (limbs addr : Nat) : Option Loc :=
  if addr = 0x00000 then some .cmd
  else if addr = 0x00004 then some .status
  else if addr = 0x00008 then some .ctrl
  else if addr = 0x0000C then some .errcode
  else if addr = 0x00010 then some .rndcnt
  else if addr = 0x00014 then some .config
  else if addr = 0x00018 then some .montnp
  else if addr = 0x0001C then some .bark
  else if addr < 0x10000 then none
  else if addr < 0x20000 then
    slot limbs (addr / 0x1000 * 0x1000) addr (.operand ⟨addr / 0x1000 % 16, Nat.mod_lt _ (by decide)⟩)
  else if addr < 0x21000 then slot limbs 0x20000 addr .mnLimb
  else if addr < 0x22000 then slot limbs 0x21000 addr .mr2Limb
  else if addr < 0x23000 then slot limbs 0x22000 addr .bnLimb
  else if addr < 0x24000 then slot (limbs + 1) 0x23000 addr .bmuLimb
  else none

/-- CONFIG: L in bits 15:0, NR = 16 in bits 23:16 (10_state.md R28). -/
def configWord (c : Config) : Word := BitVec.ofNat 32 (c.limbs % 2 ^ 16) ||| 16 <<< 16

/-- The value at a location (10_state.md R23 to R30, 20_memory.md R56, R57). Reserved bits read 0 (10_state.md R33). -/
def State.load (s : State) : Loc → Word
  | .cmd => s.cmd
  | .status => s.statusWord
  | .ctrl => bitAt s.ie 0
  | .errcode => s.errcode.zeroExtend 32
  | .rndcnt => s.rndcnt
  | .config => configWord s.cfg
  | .montnp => s.mnp
  | .bark => BitVec.ofNat 32 (s.bk % 2 ^ 16)
  | .operand i j => limb (s.reg i) j
  | .mnLimb j => limb s.mn j
  | .mr2Limb j => limb s.mr2 j
  | .bnLimb j => limb s.bn j
  | .bmuLimb j => limb s.bmu j

/-- A write to STATUS: W1C of DONE (bit 1) and OVR (bit 3), every other bit ignored (10_state.md R23). -/
def State.writeStatus (s : State) (v : Word) : State :=
  { s with done := s.done && !v.getLsbD 1, ovr := s.ovr && !v.getLsbD 3 }

/-- A write to CMD: accepted when idle (10_state.md R40), dropped with OVR while BUSY (R43). -/
def State.writeCmd (s : State) (w : Word) : State := if s.busy then { s with ovr := true } else s.accept w

/-- The write effect of a location (20_memory.md R53). A read-only one has none (10_state.md R33). -/
def State.store (s : State) (l : Loc) (v : Word) : State :=
  match l with
  | .cmd => s.writeCmd v
  | .status => s.writeStatus v
  | .ctrl => { s with ie := v.getLsbD 0 }
  | .operand i j => s.setReg i (setLimb (s.reg i) j v)
  | .errcode | .rndcnt | .config | .montnp | .bark | .mnLimb _ | .mr2Limb _ | .bnLimb _ | .bmuLimb _ => s

/-- The location an access of n bytes at addr reaches, or the reply that ends it: RNTE decodes `addr < 0x40000` (20_memory.md
R55, R59; log 8), size and alignment first, then the map, then windows closed while BUSY (R52, R53, R58). -/
def State.target (s : State) (addr n : Nat) : Except BusReply Loc :=
  if 0x40000 ≤ addr then .error .notSeen
  else if n ≠ 4 ∨ addr % 4 ≠ 0 then .error .busError
  else
    match locate s.cfg.limbs addr with
    | none => .error .busError
    | some l => if l.isWindow && s.busy then .error .busError else .ok l

/-- `MemRead(addr, n)` (20_memory.md R52): a read never changes state. -/
def State.memRead (s : State) (addr n : Nat) : BusReply :=
  match s.target addr n with
  | .error r => r
  | .ok l => .readOk (s.load l)

/-- `MemWrite(addr, n, v)` (20_memory.md R53): the state after and the reply. -/
def State.memWrite (s : State) (addr n : Nat) (v : Word) : State × BusReply :=
  match s.target addr n with
  | .error r => (s, r)
  | .ok l => (s.store l v, .writeOk)

/-- One host access, its reply kept for the host (20_memory.md R51; log 7). -/
def State.access (s : State) : Access → State
  | .read addr n => { s with reply := some (s.memRead addr n) }
  | .write addr n v => { (s.memWrite addr n v).1 with reply := some (s.memWrite addr n v).2 }

/-- The moves that run a program (30_encoding.md R89): for each word in order, wait for BUSY = 0, then write it to CMD. -/
def programTurns (words : List Word) : List Turn :=
  words.flatMap fun w => [.waitIdle, .host (.write 0x000 4 w)]

end Sys2Proof.Machine
end

