-- ==== Sys2Proof/Machine/DataMovement.lean ====
section
/-! DEFINITION. Data movement commands (40_data_movement.md). -/

namespace Sys2Proof.Machine

/-- `NOP` (40_data_movement.md R100): only the life-cycle writes. -/
def execNop (s : State) : Result := complete s

/-- `LI xd, imm` (40_data_movement.md R101). -/
def execLi (rd : Reg) (imm : Nat) (s : State) : Result := complete (s.setReg rd (zextImm imm))

/-- `MOV xd, xa` (40_data_movement.md R102). -/
def execMov (rd ra : Reg) (s : State) : Result := complete (s.setReg rd (s.reg ra))

end Sys2Proof.Machine
end

