-- ==== Sys2Proof/Machine/IntegerArithmetic.lean ====
section
/-! DEFINITION. Exact integer arithmetic commands (41_integer_arithmetic.md): exact results or an error (R110, R119). -/

namespace Sys2Proof.Machine

/-- `ADD xd, xa, xb` (41_integer_arithmetic.md R111). -/
def execAdd (rd ra rb : Reg) (s : State) : Result := writeExact rd (s.reg ra + s.reg rb) s

/-- `SUB xd, xa, xb` (41_integer_arithmetic.md R112). -/
def execSub (rd ra rb : Reg) (s : State) : Result :=
  if s.reg ra < s.reg rb then raiseError .negative s else complete (s.setReg rd (s.reg ra - s.reg rb))

/-- `MUL xd, xa, xb` (41_integer_arithmetic.md R113). -/
def execMul (rd ra rb : Reg) (s : State) : Result := writeExact rd (s.reg ra * s.reg rb) s

/-- `MOD xd, xa, xb` (41_integer_arithmetic.md R114). -/
def execMod (rd ra rb : Reg) (s : State) : Result :=
  withModulus (s.reg rb) s fun s => complete (s.setReg rd (s.reg ra % s.reg rb))

/-- `SHL xd, xa, imm` (41_integer_arithmetic.md R115). -/
def execShl (rd ra : Reg) (imm : Nat) (s : State) : Result := writeExact rd (s.reg ra * 2 ^ imm) s

/-- `SHR xd, xa, imm` (41_integer_arithmetic.md R116). -/
def execShr (rd ra : Reg) (imm : Nat) (s : State) : Result := complete (s.setReg rd (s.reg ra / 2 ^ imm))

/-- `PARITY xa` (41_integer_arithmetic.md R117). -/
def execParity (ra : Reg) (s : State) : Result := complete (s.setOdd (s.reg ra))

/-- `CMP xa, xb` (41_integer_arithmetic.md R118). -/
def execCmp (ra rb : Reg) (s : State) : Result := complete (s.setCompare (s.reg ra) (s.reg rb))

end Sys2Proof.Machine
end

