-- ==== Sys2Proof/Machine/Barrett.lean ====
section
/-! DEFINITION. The Barrett reduction engine (43_barrett.md). The unit is modelled by its own steps on the stored constant;
that they give `x mod N` is a claim about them (R143; log 14). -/

namespace Sys2Proof.Machine

/-- `BarSetup(N) = (N, k, mu)` (43_barrett.md R141). -/
def barSetup (n : Nat) : Nat × Nat × Nat := (n, bitlen n, 2 ^ (2 * bitlen n) / n)

/-- `r <- r - N` if `r >= N`. -/
def subOnce (r n : Nat) : Nat := if n ≤ r then r - n else r

/-- `BarReduce(x, N, k, mu)` (43_barrett.md R143): estimate, then at most two subtractions. -/
def barReduce (x n k mu : Nat) : Nat :=
  let q1 := x / 2 ^ (k - 1)
  let q2 := q1 * mu
  let q3 := q2 / 2 ^ (k + 1)
  subOnce (subOnce (x - q3 * n) n) n

/-- `BARSET xn` (43_barrett.md R142). -/
def execBarset (ra : Reg) (s : State) : Result :=
  withModulus (s.reg ra) s fun s =>
    let c := barSetup (s.reg ra)
    complete { s with bvalid := true, bn := c.1, bk := c.2.1, bmu := c.2.2 }

/-- `BARRED xd, xa` (43_barrett.md R144). -/
def execBarred (rd ra : Reg) (s : State) : Result :=
  if s.bvalid = false then raiseError .noCtx s
  else if 2 ^ (2 * s.bk) ≤ s.reg ra then raiseError .range s
  else complete (s.setReg rd (barReduce (s.reg ra) s.bn s.bk s.bmu))

/-- `BARMUL xd, xa, xb` (43_barrett.md R145). -/
def execBarmul (rd ra rb : Reg) (s : State) : Result :=
  if s.bvalid = false then raiseError .noCtx s
  else if s.bn ≤ s.reg ra ∨ s.bn ≤ s.reg rb then raiseError .range s
  else complete (s.setReg rd (barReduce (s.reg ra * s.reg rb) s.bn s.bk s.bmu))

end Sys2Proof.Machine
end

