-- ==== Sys2Proof/Machine/Euclid.lean ====
section
/-! DEFINITION. The Euclid unit (42_gcd_modinv.md): gcd and modular inverse. Loops run on fuel: the second number strictly
decreases, so as many rounds as its first value always reach 0 (log 13). -/

namespace Sys2Proof.Machine

/-- The loop of `gcd`: `(a, b) <- (b, a mod b)` until `b = 0` (42_gcd_modinv.md R130). -/
def gcdLoop : Nat → Nat → Nat → Nat
  | 0, a, _ => a
  | f + 1, a, b => if b = 0 then a else gcdLoop f b (a % b)

/-- `gcd(a, b)` (42_gcd_modinv.md R130). -/
def euclidGcd (a b : Nat) : Nat := gcdLoop b a b

/-- The loop of `modinverse` on `(old_r, r, old_t, t)`, answering the final `(old_r, old_t)` (42_gcd_modinv.md R132). -/
def bezoutLoop : Nat → Nat → Nat → Int → Int → Nat × Int
  | 0, oldR, _, oldT, _ => (oldR, oldT)
  | f + 1, oldR, r, oldT, t =>
    if r = 0 then (oldR, oldT)
    else bezoutLoop f r (oldR - oldR / r * r) t (oldT - ((oldR / r : Nat) : Int) * t)

/-- `modinverse(a, n)` for n >= 1, `none` for the source's None (42_gcd_modinv.md R132). -/
def modInverse (a n : Nat) : Option Nat :=
  let p := bezoutLoop a n a 0 1
  if 1 < p.1 then none else some (p.2 % (n : Int)).toNat

/-- `GCD xd, xa, xb` (42_gcd_modinv.md R131). -/
def execGcd (rd ra rb : Reg) (s : State) : Result := complete (s.setReg rd (euclidGcd (s.reg ra) (s.reg rb)))

/-- `MODINV xd, xa, xn` (42_gcd_modinv.md R133): no inverse is no error, NONE says it and the destination is kept. -/
def execModinv (rd ra rb : Reg) (s : State) : Result :=
  withModulus (s.reg rb) s fun s =>
    match modInverse (s.reg ra) (s.reg rb) with
    | none => complete (s.setNone true)
    | some i => complete ((s.setNone false).setReg rd i)

end Sys2Proof.Machine
end

