-- ==== Sys2Proof/Machine/Montgomery.lean ====
section
/-! DEFINITION. The Montgomery multiplier (44_montgomery.md), radix `R = 2^W` (R150). The unit is modelled by its own steps;
that they give `t * R^-1 mod N` is a claim about them (R153; log 14). -/

namespace Sys2Proof.Machine

/-- `(-(N^-1)) mod M`, the inverse by the extended Euclid of 42_gcd_modinv.md R132. For N without inverse modulo M, which the
unit never sees (N is odd, M a power of two), 0. -/
def negInverse (n m : Nat) : Nat :=
  match modInverse n m with
  | none => 0
  | some i => (m - i) % m

/-- `MontSetup(N) = (N, np, r2)` for odd N (44_montgomery.md R151), at register width w. -/
def montSetup (w n : Nat) : Nat × Word × Nat := (n, BitVec.ofNat 32 (negInverse n (2 ^ 32)), 2 ^ (2 * w) % n)

/-- `Redc(t, N)` (44_montgomery.md R153), at register width w. -/
def redc (w t n : Nat) : Nat :=
  let np := negInverse n (2 ^ w)
  let m := t % 2 ^ w * np % 2 ^ w
  let u := (t + m * n) / 2 ^ w
  if n ≤ u then u - n else u

/-- `MontMul(a, b, N) = Redc(a * b, N)` (44_montgomery.md R153). -/
def montMul (w a b n : Nat) : Nat := redc w (a * b) n

/-- The rounds i = L - f to L - 1 of the limb-serial multiplication (44_montgomery.md R157). -/
def montMulSerialLoop (a b n : Nat) (np : Word) : Nat → Nat → Nat → Nat
  | 0, _, t => t
  | f + 1, i, t =>
    let t1 := t + a * (limb b i).toNat
    let m := t1 % 2 ^ 32 * np.toNat % 2 ^ 32
    montMulSerialLoop a b n np f (i + 1) ((t1 + m * n) / 2 ^ 32)

/-- The limb-serial way to `MontMul` that explains the 32-bit MNP (44_montgomery.md R157, informative): no command uses it. -/
def montMulSerial (limbs a b n : Nat) (np : Word) : Nat :=
  let t := montMulSerialLoop a b n np limbs 0 0
  if n ≤ t then t - n else t

/-- `MONTSET xn` (44_montgomery.md R152): ZEROMOD, then EVENMOD. -/
def execMontset (ra : Reg) (s : State) : Result :=
  withModulus (s.reg ra) s fun s =>
    if s.reg ra % 2 = 0 then raiseError .evenMod s
    else
      let c := montSetup s.width (s.reg ra)
      complete { s with mvalid := true, mn := c.1, mnp := c.2.1, mr2 := c.2.2 }

/-- `MONTMUL xd, xa, xb` (44_montgomery.md R154). -/
def execMontmul (rd ra rb : Reg) (s : State) : Result :=
  if s.mvalid = false then raiseError .noCtx s
  else if s.mn ≤ s.reg ra ∨ s.mn ≤ s.reg rb then raiseError .range s
  else complete (s.setReg rd (redc s.width (s.reg ra * s.reg rb) s.mn))

/-- `TOMONT xd, xa` (44_montgomery.md R155). -/
def execTomont (rd ra : Reg) (s : State) : Result :=
  if s.mvalid = false then raiseError .noCtx s
  else if s.mn ≤ s.reg ra then raiseError .range s
  else complete (s.setReg rd (redc s.width (s.reg ra * s.mr2) s.mn))

/-- `FROMMONT xd, xa` (44_montgomery.md R156). -/
def execFrommont (rd ra : Reg) (s : State) : Result :=
  if s.mvalid = false then raiseError .noCtx s
  else if s.mn ≤ s.reg ra then raiseError .range s
  else complete (s.setReg rd (redc s.width (s.reg ra) s.mn))

end Sys2Proof.Machine
end

