-- ==== Sys2Proof/Machine/ModExp.lean ====
section
/-! DEFINITION. The modular exponentiation pipeline (45_modexp.md). Commands follow the source's loop (R168); the two unit
realisations of it (R167, R169) stand beside it, and which one runs is not observable (R167; log 15). -/

namespace Sys2Proof.Machine

/-- The square-and-multiply loop over a modular product `mulm`, on accumulator v, running square p and exponent d
(45_modexp.md R168, R169): one round per bit of d, low to high. -/
def powLoop (mulm : Nat → Nat → Nat) : Nat → Nat → Nat → Nat → Nat
  | 0, v, _, _ => v
  | f + 1, v, p, d =>
    if d = 0 then v
    else powLoop mulm f (if d % 2 = 1 then mulm v p else v) (mulm p p) (d / 2)

/-- The source's modular product `(a * b) mod n` (45_modexp.md R165). -/
def mulMod (n a b : Nat) : Nat := a * b % n

/-- `powermod(base, exponent, modulus)` for modulus >= 1 (45_modexp.md R168). -/
def powerMod (base exponent modulus : Nat) : Nat :=
  powLoop (mulMod modulus) (bitlen exponent) (1 % modulus) (base % modulus) exponent

/-- The realisation on the Montgomery unit, odd modulus (45_modexp.md R169), at register width w. -/
def powerModMont (w base exponent n : Nat) : Nat :=
  let r2 := (montSetup w n).2.2
  redc w (powLoop (fun a b => montMul w a b n) (bitlen exponent) (redc w (1 % n * r2) n) (redc w (base % n * r2) n)
    exponent) n

/-- The realisation on the Barrett engine, even modulus (45_modexp.md R169). -/
def powerModBar (base exponent n : Nat) : Nat :=
  let c := barSetup n
  powLoop (fun a b => barReduce (a * b) n c.2.1 c.2.2) (bitlen exponent) (1 % n) (base % n) exponent

/-- `MULMOD xd, xa, xb, xn` (45_modexp.md R165). -/
def execMulmod (rd ra rb rc : Reg) (s : State) : Result :=
  withModulus (s.reg rc) s fun s => complete (s.setReg rd (mulMod (s.reg rc) (s.reg ra) (s.reg rb)))

/-- `POWMOD xd, xbase, xexp, xn` (45_modexp.md R170). -/
def execPowmod (rd ra rb rc : Reg) (s : State) : Result :=
  withModulus (s.reg rc) s fun s => complete (s.setReg rd (powerMod (s.reg ra) (s.reg rb) (s.reg rc)))

end Sys2Proof.Machine
end

