-- ==== Sys2Proof/Machine/MillerRabin.lean ====
section
/-! DEFINITION. The Miller-Rabin circuit and the prime search (46_miller_rabin.md). Pseudocode that draws is a function of the
list of words drawn so far: it answers the result and the words it did not use, or `none` where it asks for a word the list
does not have (10_state.md R41; log 5). Its retry loops run on fuel one above the number of words: every round but the last
uses at least one word, so the fuel never ends a loop (log 13). -/

namespace Sys2Proof.Machine

/-- The first n words of the list as one number, first word least significant (46_miller_rabin.md R177). -/
def takeWords : Nat → List Word → Option (Nat × List Word)
  | 0, ws => some (0, ws)
  | _ + 1, [] => none
  | n + 1, w :: ws => (takeWords n ws).map fun p => (w.toNat + 2 ^ 32 * p.1, p.2)

/-- `DrawBits(k)`: `ceil(k / 32)` words, excess high bits dropped (46_miller_rabin.md R177). -/
def drawBits (k : Nat) (ws : List Word) : Option (Nat × List Word) :=
  (takeWords ((k + 31) / 32) ws).map fun p => (p.1 % 2 ^ k, p.2)

/-- The tries of `DrawBelow(m)`, k bits each (46_miller_rabin.md R178). -/
def drawBelowLoop : Nat → Nat → Nat → List Word → Option (Nat × List Word)
  | 0, _, _, _ => none
  | f + 1, m, k, ws =>
    match drawBits k ws with
    | none => none
    | some (v, rest) => if v < m then some (v, rest) else drawBelowLoop f m k rest

/-- `DrawBelow(m)` for m >= 1, by rejection (46_miller_rabin.md R178). -/
def drawBelow (m : Nat) (ws : List Word) : Option (Nat × List Word) :=
  drawBelowLoop (ws.length + 1) m (bitlen (m - 1)) ws

/-- The loop of `Factor`: halve r and count until r is odd (46_miller_rabin.md R179). -/
def factorLoop : Nat → Nat → Nat → Nat × Nat
  | 0, r, s => (r, s)
  | f + 1, r, s => if r % 2 = 0 then factorLoop f (r / 2) (s + 1) else (r, s)

/-- `Factor(n) = (r, s)` with `n - 1 = r * 2^s`, r odd, for odd n >= 3 (46_miller_rabin.md R179). -/
def factor (n : Nat) : Nat × Nat := factorLoop (bitlen (n - 1)) (n - 1) 0

/-- The squarings of one round, k of them left; true if the witness passes (46_miller_rabin.md R180). -/
def squareLoop (n : Nat) : Nat → Nat → Bool
  | 0, y => decide (y = n - 1)
  | k + 1, y => if y = n - 1 then true else if y * y % n = 1 then false else squareLoop n k (y * y % n)

/-- One round: true if the witness a does not reject n, where `(r, s) = Factor(n)` (46_miller_rabin.md R180). -/
def roundPasses (n r s a : Nat) : Bool :=
  let y := powerMod a r n
  if y = 1 ∨ y = n - 1 then true else squareLoop n (s - 1) y

/-- The rounds of `isprime`, each with its own witness, ending at the first that rejects (46_miller_rabin.md R180). -/
def rounds (n r s : Nat) : Nat → List Word → Option (Bool × List Word)
  | 0, ws => some (true, ws)
  | it + 1, ws =>
    match drawBelow (n - 3) ws with
    | none => none
    | some (v, rest) => if roundPasses n r s (2 + v) then rounds n r s it rest else some (false, rest)

/-- `isprime(n, iterations)` (46_miller_rabin.md R180). -/
def isPrime (n iterations : Nat) (ws : List Word) : Option (Bool × List Word) :=
  if n < 2 then some (false, ws)
  else if n = 2 ∨ n = 3 then some (true, ws)
  else if n % 2 = 0 then some (false, ws)
  else rounds n (factor n).1 (factor n).2 iterations ws

/-- `Candidate(bits)` (46_miller_rabin.md R183). -/
def candidate (bits : Nat) (ws : List Word) : Option (Nat × List Word) :=
  (drawBits (bits - 1) ws).map fun p => (2 ^ (bits - 1) + p.1, p.2)

/-- The candidates of `makeprime` (46_miller_rabin.md R185). -/
def makePrimeLoop : Nat → Nat → Nat → List Word → Option (Nat × List Word)
  | 0, _, _, _ => none
  | f + 1, bits, iterations, ws =>
    match candidate bits ws with
    | none => none
    | some (c, rest) =>
      match isPrime c iterations rest with
      | none => none
      | some (true, rest') => some (c, rest')
      | some (false, rest') => makePrimeLoop f bits iterations rest'

/-- `makeprime(bits, iterations)` for bits >= 2 (46_miller_rabin.md R185). -/
def makePrime (bits iterations : Nat) (ws : List Word) : Option (Nat × List Word) :=
  makePrimeLoop (ws.length + 1) bits iterations ws

/-- `ISPRIME xn, iterations` (46_miller_rabin.md R182). -/
def execIsprime (ra : Reg) (imm : Nat) (s : State) : Result :=
  drawing (isPrime (s.reg ra) imm s.drawn) s fun b => complete (s.setPrime b)

/-- `MAKEPRIME xd, xbits, iterations` (46_miller_rabin.md R186): PARAM before any draw. -/
def execMakeprime (rd ra : Reg) (imm : Nat) (s : State) : Result :=
  if s.reg ra < 2 ∨ s.width < s.reg ra then raiseError .param s
  else drawing (makePrime (s.reg ra) imm s.drawn) s fun c => complete ((s.setReg rd c).setPrime true)

/-- `RAND xd, xbits` (46_miller_rabin.md R184): PARAM before any draw. -/
def execRand (rd ra : Reg) (s : State) : Result :=
  if s.reg ra < 1 ∨ s.width < s.reg ra then raiseError .param s
  else drawing (candidate (s.reg ra) s.drawn) s fun c => complete (s.setReg rd c)

end Sys2Proof.Machine
end

