-- ==== Sys2Proof/Machine/Dispatch.lean ====
section
/-! DEFINITION. The engine's step of the command in flight: one arm per command (10_state.md R41). -/

namespace Sys2Proof.Machine

def exec (i : Instr) (s : State) : Host.Outcome State Fault Refusal :=
  match i with
  | .nop => Sys2Proof.Machine.execNop s
  | .li rd imm => Sys2Proof.Machine.execLi rd imm s
  | .mov rd ra => Sys2Proof.Machine.execMov rd ra s
  | .add rd ra rb => Sys2Proof.Machine.execAdd rd ra rb s
  | .sub rd ra rb => Sys2Proof.Machine.execSub rd ra rb s
  | .mul rd ra rb => Sys2Proof.Machine.execMul rd ra rb s
  | .mod rd ra rb => Sys2Proof.Machine.execMod rd ra rb s
  | .shl rd ra imm => Sys2Proof.Machine.execShl rd ra imm s
  | .shr rd ra imm => Sys2Proof.Machine.execShr rd ra imm s
  | .parity ra => Sys2Proof.Machine.execParity ra s
  | .cmp ra rb => Sys2Proof.Machine.execCmp ra rb s
  | .gcd rd ra rb => Sys2Proof.Machine.execGcd rd ra rb s
  | .modinv rd ra rb => Sys2Proof.Machine.execModinv rd ra rb s
  | .mulmod rd ra rb rc => Sys2Proof.Machine.execMulmod rd ra rb rc s
  | .powmod rd ra rb rc => Sys2Proof.Machine.execPowmod rd ra rb rc s
  | .montset ra => Sys2Proof.Machine.execMontset ra s
  | .montmul rd ra rb => Sys2Proof.Machine.execMontmul rd ra rb s
  | .tomont rd ra => Sys2Proof.Machine.execTomont rd ra s
  | .frommont rd ra => Sys2Proof.Machine.execFrommont rd ra s
  | .barset ra => Sys2Proof.Machine.execBarset ra s
  | .barred rd ra => Sys2Proof.Machine.execBarred rd ra s
  | .barmul rd ra rb => Sys2Proof.Machine.execBarmul rd ra rb s
  | .isprime ra imm => Sys2Proof.Machine.execIsprime ra imm s
  | .makeprime rd ra imm => Sys2Proof.Machine.execMakeprime rd ra imm s
  | .rand rd ra => Sys2Proof.Machine.execRand rd ra s

end Sys2Proof.Machine
end

