-- ==== Sys2Proof/Machine/Engine.lean ====
section
/-! DEFINITION. The engine's step on the command word in flight (10_state.md R41) and what each turn does (00_scope.md R9). -/

namespace Sys2Proof.Machine

/-- The engine's step: decode the word in flight, an illegal word raising ILLEGAL as its only act (30_encoding.md R86), else
one step of the command. The engine has a step only while BUSY = 1 (00_scope.md R9). -/
def engineStep (s : State) : Result :=
  if s.busy then
    match decode s.cmd with
    | .error _ => raiseError .illegal s
    | .ok i => exec i s
  else .fault .idle

/-- The state in which the engine is to move, if the next move is its own: its turn, the host waiting for BUSY = 0 while BUSY
= 1, or no move of the environment pending (log 2, 3, 6). -/
def State.engineTurn (s : State) : Option State :=
  match s.turns with
  | [] => some s
  | .engine :: ts => some { s with turns := ts }
  | .waitIdle :: _ => if s.busy then some s else none
  | _ => none

/-- The state after a move of the environment, which stands at the head of `turns`. -/
def State.envTurn (s : State) : State :=
  match s.turns with
  | .host a :: ts => { s with turns := ts }.access a
  | .deliver w :: ts => { s with turns := ts, rnd := s.rnd ++ [w] }
  | .rst :: ts => { s with turns := ts }.rst
  | .waitIdle :: ts => { s with turns := ts }
  | _ => s

/-- One step of the system: the engine's or one of the environment's. -/
def oneStep (s : State) : Result :=
  match s.engineTurn with
  | some t => engineStep t
  | none => .next s.envTurn

/-- The state in which the word w has just been accepted and the engine is to move (10_state.md R40; log 11). -/
def State.launch (s : State) (w : Word) : State := { s.accept w with turns := .engine :: s.turns }

end Sys2Proof.Machine
end

