-- ==== Sys2Proof/Machine/Step.lean ====
section
/-! DEFINITION. One step of RNTE with its agents (00_scope.md R9), and the placing of a command for the next step. -/

namespace Sys2Proof.Machine

/-- One step: an engine step or one move of the host, the RND source or reset. -/
def step (s : State) : Host.Outcome State Fault Refusal := oneStep s

/-- The command word w accepted and in flight, so that the next step executes it (10_state.md R39, R40; log 11). The bits above
nbits are 0. -/
def State.withFetchWord (s : State) (nbits w : Nat) : State := s.launch (BitVec.ofNat 32 (w % 2 ^ nbits))

end Sys2Proof.Machine
end

