-- ==== Sys2Proof/Safety.lean ====
section
/-! DEFINITION. The invariants of the machine, and the words claims use: the values a register may hold (10_state.md R20), the
context invariants (R31, R32), the life cycle of a command (R40, R42), and a command's destination (R21). -/

namespace Sys2Proof

/-- The one operand register a command may write, if any (10_state.md R21). -/
def Instr.dest : Instr → Option Reg
  | .nop => none
  | .li rd _ => some rd
  | .mov rd _ => some rd
  | .add rd _ _ => some rd
  | .sub rd _ _ => some rd
  | .mul rd _ _ => some rd
  | .mod rd _ _ => some rd
  | .shl rd _ _ => some rd
  | .shr rd _ _ => some rd
  | .parity _ => none
  | .cmp _ _ => none
  | .gcd rd _ _ => some rd
  | .modinv rd _ _ => some rd
  | .mulmod rd _ _ _ => some rd
  | .powmod rd _ _ _ => some rd
  | .montset _ => none
  | .montmul rd _ _ => some rd
  | .tomont rd _ => some rd
  | .frommont rd _ => some rd
  | .barset _ => none
  | .barred rd _ => some rd
  | .barmul rd _ _ => some rd
  | .isprime _ _ => none
  | .makeprime rd _ _ => some rd
  | .rand rd _ => some rd

/-- The commands that draw RND words (00_scope.md R8). -/
def Instr.draws : Instr → Bool
  | .isprime _ _ | .makeprime _ _ _ | .rand _ _ => true
  | .nop | .li _ _ | .mov _ _ | .add _ _ _ | .sub _ _ _ | .mul _ _ _ | .mod _ _ _ | .shl _ _ _ | .shr _ _ _
  | .parity _ | .cmp _ _ | .gcd _ _ _ | .modinv _ _ _ | .mulmod _ _ _ _ | .powmod _ _ _ _ | .montset _
  | .montmul _ _ _ | .tomont _ _ | .frommont _ _ | .barset _ | .barred _ _ | .barmul _ _ _ => false

/-- The commands that work in a private context (10_state.md R36). -/
def Instr.pipeline : Instr → Bool
  | .mulmod _ _ _ _ | .powmod _ _ _ _ | .isprime _ _ | .makeprime _ _ _ => true
  | .nop | .li _ _ | .mov _ _ | .add _ _ _ | .sub _ _ _ | .mul _ _ _ | .mod _ _ _ | .shl _ _ _ | .shr _ _ _
  | .parity _ | .cmp _ _ | .gcd _ _ _ | .modinv _ _ _ | .montset _ | .montmul _ _ _ | .tomont _ _
  | .frommont _ _ | .barset _ | .barred _ _ | .barmul _ _ _ | .rand _ _ => false

end Sys2Proof

namespace Sys2Proof.Machine

/-- The Montgomery context (10_state.md R31): zero until the first MONTSET, then MN odd, `MNP * MN = -1 (mod 2^32)` and
`MR2 = 2^(2W) mod MN`. -/
def MontCtx (s : State) : Prop :=
  s.mn < 2 ^ s.width ∧ s.mr2 < 2 ^ s.width ∧
  (s.mvalid = true → s.mn % 2 = 1 ∧ s.mnp.toNat * s.mn % 2 ^ 32 = 2 ^ 32 - 1 ∧ s.mr2 = 2 ^ (2 * s.width) % s.mn) ∧
  (s.mvalid = false → s.mn = 0 ∧ s.mnp = 0 ∧ s.mr2 = 0)

/-- The Barrett context (10_state.md R32): zero until the first BARSET, then `2^(BK-1) <= BN < 2^BK` and
`BMU = 2^(2*BK) div BN`, with BK at most W (R30) and BMU in W+32 bits. -/
def BarCtx (s : State) : Prop :=
  s.bn < 2 ^ s.width ∧ s.bk ≤ s.width ∧ s.bmu < 2 ^ (s.width + 32) ∧
  (s.bvalid = true → 1 ≤ s.bn ∧ 2 ^ (s.bk - 1) ≤ s.bn ∧ s.bn < 2 ^ s.bk ∧ s.bmu = 2 ^ (2 * s.bk) / s.bn) ∧
  (s.bvalid = false → s.bn = 0 ∧ s.bk = 0 ∧ s.bmu = 0)

/-- What every state of a run satisfies. -/
structure Inv (s : State) : Prop where
  /-- W is legal (00_scope.md R6). -/
  legal : s.cfg.Legal
  /-- Every operand register holds a natural below 2^W (10_state.md R20, 00_scope.md R7). -/
  regs : ∀ i : Reg, s.reg i < 2 ^ s.width
  /-- EQ = 1 and LT = 1 never occur together (41_integer_arithmetic.md R118). -/
  compare : ¬ (s.flagEq = true ∧ s.flagLt = true)
  /-- From acceptance to completion DONE = 0 and ERR = 0 (10_state.md R44). -/
  inFlight : s.busy = true → s.done = false ∧ s.err = false
  /-- Internal temporaries do not survive the command (10_state.md R36). -/
  idle : s.busy = false → s.drawn = []
  /-- ERRCODE is 0 exactly when ERR = 0 (10_state.md R26, R42). -/
  errIff : s.err = true ↔ s.errcode ≠ 0
  /-- Codes 0x09 to 0xFF are never produced (60_exceptions.md R201). -/
  codes : s.errcode.toNat ≤ 8
  mont : MontCtx s
  bar : BarCtx s

/-- The words of the list as one number, first word least significant (46_miller_rabin.md R177). -/
def wordsValue (n : Nat) (ws : List Word) : Nat := ∑ i ∈ Finset.range n, (ws.getD i 0).toNat * 2 ^ (32 * i)

/-- `w` is the one word that is the command `i` (30_encoding.md R86). -/
def OnlyWordOf (i : Instr) (w : Word) : Prop := ∀ v : Word, decode v = .ok i ↔ v = w

end Sys2Proof.Machine
end

