-- ==== Sys2Proof/Certificates/Slice0/Obligations.lean ====
section
/-! DEFINITION. The statements for the provers, from the numbered rules of spec/. Each docstring names the rules it formalises. -/

open Sys2Proof Sys2Proof.Machine

/-! ## Encoding and decoding (30_encoding.md) -/

/-- 30_encoding.md sections 1 to 3 (R81 to R84): every well-formed command, at every operand value, is decoded from its word. -/
def Obligations.DecodeOfEncodeIsTheCommand : Prop :=
  ∀ i : Instr, i.wf = true → decode (encode i) = .ok i

/-- 30_encoding.md section 4 (R86): a word that decodes to a command is the one word of that command. -/
def Obligations.EachCommandHasOneWord : Prop :=
  ∀ (w : Word) (i : Instr), decode w = .ok i → i.wf = true ∧ encode i = w

/-- 30_encoding.md section 3 and 4 (R84, R86): a word is a command of a row of the table iff `w & mask = match`, and a word that
meets no row is rejected. -/
def Obligations.DecodeFollowsTheOpcodeTable : Prop :=
  let table : List (Word × Word) :=
    [(0x00000000, 0xFFFFFFFF), (0x01000000, 0xFF0F0000), (0x02000000, 0xFF00FFFF), (0x10000000, 0xFF000FFF),
     (0x11000000, 0xFF000FFF), (0x12000000, 0xFF000FFF), (0x13000000, 0xFF000FFF), (0x14000000, 0xFF000000),
     (0x15000000, 0xFF000000), (0x16000000, 0xFFF0FFFF), (0x17000000, 0xFFF00FFF), (0x20000000, 0xFF000FFF),
     (0x21000000, 0xFF000FFF), (0x22000000, 0xFF0000FF), (0x23000000, 0xFF0000FF), (0x30000000, 0xFFF0FFFF),
     (0x31000000, 0xFF000FFF), (0x32000000, 0xFF00FFFF), (0x33000000, 0xFF00FFFF), (0x38000000, 0xFFF0FFFF),
     (0x39000000, 0xFF00FFFF), (0x3A000000, 0xFF000FFF), (0x40000000, 0xFFF00000), (0x41000000, 0xFF000000),
     (0x42000000, 0xFF00FFFF)]
  (∀ r ∈ table, ∀ w : Word, w &&& r.2 = r.1 ↔ ∃ i, decode w = .ok i ∧ tableRow i = (r.2, r.1)) ∧
  (∀ w : Word, (∀ r ∈ table, w &&& r.2 ≠ r.1) → ∃ e, decode w = .error e)

/-- 30_encoding.md R85: the spec's fifteen encoding examples, by the encoder and by the decoder. -/
def Obligations.SpecEncodingExamples : Prop :=
  ∀ p ∈ ([(.nop, 0x00000000), (.li 3 10000, 0x01302710), (.mov 1 2, 0x02120000), (.add 3 1 2, 0x10312000),
      (.shl 4 4 1, 0x14440001), (.parity 9, 0x16090000), (.cmp 13 11, 0x170DB000), (.modinv 10 8 7, 0x21A87000),
      (.mulmod 0 1 2 3, 0x22012300), (.powmod 0 1 2 3, 0x23012300), (.montset 5, 0x30050000), (.barred 2 1, 0x39210000),
      (.isprime 1 50, 0x40010032), (.makeprime 2 1 50, 0x41210032), (.rand 8 0, 0x42800000)] : List (Instr × Word)),
    encode p.1 = p.2 ∧ (decode p.2).toOption = some p.1

/-! ## Steps, acceptance, reset (10_state.md, 70_reset_and_hazards.md) -/

/-- 10_state.md section 7 (R41): when the engine moves and the word in flight is a command, the step is that command's. The
engine moves on its own turn, while the host waits for BUSY = 0, and when no move of the environment is pending: this order of
moves is the model's choice (log 2, 3, 6). -/
def Obligations.StepRunsTheDecodedCommand : Prop :=
  ∀ (s : State) (i : Instr) (ts : List Turn), s.busy = true → decode s.cmd = .ok i →
    (s.turns = [] → step s = exec i s) ∧
    (s.turns = .engine :: ts → step s = exec i { s with turns := ts }) ∧
    (s.turns = .waitIdle :: ts → step s = exec i s)

/-- 30_encoding.md section 4 (R86) and 60_exceptions.md section 1 (R201): an illegal word is accepted like any other, and its
execution raises ILLEGAL and writes nothing else. -/
def Obligations.IllegalWordEndsInIllegal : Prop :=
  ∀ (s : State) (w : Word) (r : Reject) (ts : List Turn), decode w = .error r →
    (s.busy = false → ∃ t, s.memWrite 0x000 4 w = (t, .writeOk) ∧ t.busy = true ∧ t.cmd = w) ∧
    (s.busy = true → s.cmd = w → s.turns = .engine :: ts →
      step s = .next { s with
        turns := ts, err := true, errcode := 0x01, busy := false, done := true, drawn := [] })

/-- 00_scope.md section 6 (R9), 60_exceptions.md R217, 70_reset_and_hazards.md R238: the moves of the environment are steps, an
idle engine has none. The list of moves and the stuck state `idle` are the model's choice (log 2, 3, 6). -/
def Obligations.OtherAgentsMoveAndIdleEngineDoesNot : Prop :=
  ∀ (s : State) (ts : List Turn),
    (∀ a, s.turns = .host a :: ts → step s = .next (State.access { s with turns := ts } a)) ∧
    (∀ w, s.turns = .deliver w :: ts → step s = .next { s with turns := ts, rnd := s.rnd ++ [w] }) ∧
    (s.busy = false → s.turns = .waitIdle :: ts → step s = .next { s with turns := ts }) ∧
    (s.busy = false → s.turns = [] ∨ s.turns = .engine :: ts → step s = .fault .idle)

/-- Log 11: the word the model places is accepted (10_state.md R40) and the very next step runs its command. -/
def Obligations.PlacedWordRunsNext : Prop :=
  ∀ (s : State) (w : Word) (i : Instr), decode w = .ok i →
    step (s.withFetchWord 32 w.toNat) =
      exec i { s with cmd := w, busy := true, done := false, err := false, errcode := 0x00, drawn := [] }

/-- 10_state.md R34: after reset the state is exactly the table's, whatever it was; a command in flight is discarded; CONFIG and
the RND source are not affected. -/
def Obligations.ResetPutsEveryRegisterAtItsValue : Prop :=
  ∀ (s : State) (ts : List Turn), s.turns = .rst :: ts →
    ∃ t, step s = .next t ∧ (∀ i : Reg, t.reg i = 0) ∧
      (t.flagEq = false ∧ t.flagLt = false ∧ t.flagOdd = false ∧ t.flagPrime = false ∧ t.flagNone = false) ∧
      (t.busy = false ∧ t.done = false ∧ t.err = false ∧ t.ovr = false ∧ t.ie = false) ∧
      (t.cmd = 0x00000000 ∧ t.errcode = 0x00 ∧ t.rndcnt = 0x00000000) ∧
      (t.mvalid = false ∧ t.mn = 0 ∧ t.mnp = 0 ∧ t.mr2 = 0) ∧
      (t.bvalid = false ∧ t.bn = 0 ∧ t.bk = 0 ∧ t.bmu = 0) ∧
      t.irq = false ∧ t.cfg = s.cfg ∧ t.rnd = s.rnd ∧ t.turns = ts ∧ t.drawn = []

/-- 10_state.md sections 1, 4 and 5 (R20, R31, R32, R34): the invariant holds right after reset, for every legal width.
That `State.reset` has L = 2 is the model's choice (log 1). -/
def Obligations.InvHoldsAfterReset : Prop :=
  (∀ c : Config, c.Legal → Inv (State.resetOf c)) ∧ Inv State.reset

/-- 10_state.md R20, R31, R32, R44, 00_scope.md R7, 60_exceptions.md R201: every step of every agent keeps every register below
its width, both unit contexts right, and the life cycle of commands. -/
def Obligations.EveryStepKeepsInv : Prop :=
  ∀ s t : State, Inv s → step s = .next t → Inv t

/-! ## The host interface (20_memory.md, 10_state.md section 3) -/

/-- 10_state.md R40. -/
def Obligations.IdleWriteToCmdIsAccepted : Prop :=
  ∀ (s : State) (w : Word), s.busy = false →
    s.memWrite 0x000 4 w =
      ({ s with cmd := w, busy := true, done := false, err := false, errcode := 0x00, drawn := [] }, .writeOk)

/-- 10_state.md R43. -/
def Obligations.BusyWriteToCmdIsDropped : Prop :=
  ∀ (s : State) (w : Word), s.busy = true → s.memWrite 0x000 4 w = ({ s with ovr := true }, .writeOk)

/-- 10_state.md section 3 (R23): the fields of STATUS at their places, reserved bits 0; a write clears DONE and OVR where bits 1
and 3 are 1 and does nothing else, also while BUSY = 1. -/
def Obligations.StatusReadsItsFieldsAndClearsByWritingOne : Prop :=
  ∀ s : State,
    (∃ w : Word, s.memRead 0x004 4 = .readOk w ∧
      w.getLsbD 0 = s.busy ∧ w.getLsbD 1 = s.done ∧ w.getLsbD 2 = s.err ∧ w.getLsbD 3 = s.ovr ∧
      w.getLsbD 8 = s.flagEq ∧ w.getLsbD 9 = s.flagLt ∧ w.getLsbD 10 = s.flagOdd ∧ w.getLsbD 11 = s.flagPrime ∧
      w.getLsbD 12 = s.flagNone ∧ w.getLsbD 16 = s.mvalid ∧ w.getLsbD 17 = s.bvalid ∧
      (∀ k, k ∈ [4, 5, 6, 7, 13, 14, 15] ∨ 18 ≤ k → w.getLsbD k = false)) ∧
    (∀ v : Word, ∃ t, s.memWrite 0x004 4 v = (t, .writeOk) ∧
      t = { s with done := t.done, ovr := t.ovr } ∧
      t.done = (if v.getLsbD 1 then false else s.done) ∧ t.ovr = (if v.getLsbD 3 then false else s.ovr))

/-- 10_state.md R25. -/
def Obligations.CtrlHoldsInterruptEnable : Prop :=
  ∀ s : State,
    s.memRead 0x008 4 = .readOk (if s.ie then 0x00000001 else 0x00000000) ∧
    (∀ v : Word, s.memWrite 0x008 4 v = ({ s with ie := v.getLsbD 0 }, .writeOk)) ∧
    State.reset.memRead 0x008 4 = .readOk 0x00000000

/-- 10_state.md sections 3 and 5 (R24, R26 to R30, R33): what the other control registers read, at any time, and that a write
to a read-only one completes ok and changes nothing. -/
def Obligations.ControlRegistersReadAndIgnoreWrites : Prop :=
  ∀ s : State, Inv s →
    s.memRead 0x000 4 = .readOk s.cmd ∧
    (∃ w : Word, s.memRead 0x00C 4 = .readOk w ∧ w.toNat = s.errcode.toNat) ∧
    s.memRead 0x010 4 = .readOk s.rndcnt ∧
    (∃ w : Word, s.memRead 0x014 4 = .readOk w ∧ w.toNat = 16 * 2 ^ 16 + s.width / 32) ∧
    s.memRead 0x018 4 = .readOk s.mnp ∧
    (∃ w : Word, s.memRead 0x01C 4 = .readOk w ∧ w.toNat = s.bk) ∧
    (∀ a ∈ [0x00C, 0x010, 0x014, 0x018, 0x01C], ∀ v : Word, s.memWrite a 4 v = (s, .writeOk))

/-- 20_memory.md R54. -/
def Obligations.OnlyAlignedFourByteAccesses : Prop :=
  ∀ (s : State) (addr n : Nat) (v : Word), addr < 0x40000 → n ≠ 4 ∨ addr % 4 ≠ 0 →
    s.memRead addr n = .busError ∧ s.memWrite addr n v = (s, .busError)

/-- 20_memory.md R58: while BUSY = 1 every window access is a BusError, and every control register behaves as when idle (but
for the BUSY bit itself in STATUS and a write to CMD). -/
def Obligations.WindowsAreClosedWhileBusy : Prop :=
  ∀ (s : State) (addr : Nat) (v : Word), s.busy = true → addr % 4 = 0 →
    (0x10000 ≤ addr → addr < 0x24000 → s.memRead addr 4 = .busError ∧ s.memWrite addr 4 v = (s, .busError)) ∧
    (addr < 0x20 → addr ≠ 0x004 → s.memRead addr 4 = State.memRead { s with busy := false } addr 4) ∧
    s.memRead 0x004 4 = .readOk (State.statusWord { s with busy := false } ||| 0x00000001) ∧
    (addr < 0x20 → addr ≠ 0x000 →
      State.memWrite { s with busy := false } addr 4 v =
        ({ (s.memWrite addr 4 v).1 with busy := false }, (s.memWrite addr 4 v).2)) ∧
    s.memWrite 0x000 4 v = ({ s with ovr := true }, .writeOk)

/-- 20_memory.md R59. That an access at or above 0x40000, of any size and alignment, gets the reply `notSeen` is the model's reading
(DEDUCED, log 8): R52 and R54 alone would give BusError there, and R59 gives that range to the platform. -/
def Obligations.UnmappedAccessesAreBusErrors : Prop :=
  ∀ (s : State) (addr n : Nat) (v : Word),
    (addr % 4 = 0 →
      (0x00020 ≤ addr ∧ addr < 0x10000) ∨
      (0x10000 ≤ addr ∧ addr < 0x23000 ∧ s.width / 32 ≤ addr % 0x1000 / 4) ∨
      (0x23000 ≤ addr ∧ addr < 0x24000 ∧ s.width / 32 + 1 ≤ addr % 0x1000 / 4) ∨
      (0x24000 ≤ addr ∧ addr < 0x40000) →
      s.memRead addr 4 = .busError ∧ s.memWrite addr 4 v = (s, .busError)) ∧
    (0x40000 ≤ addr → s.memRead addr n = .notSeen ∧ s.memWrite addr n v = (s, .notSeen))

/-- 20_memory.md R56. -/
def Obligations.OperandWindowReadsAndWritesOneLimb : Prop :=
  ∀ (s : State) (i : Reg) (j : Nat), s.cfg.Legal → s.busy = false → j < s.width / 32 →
    (∃ w : Word, s.memRead (0x10000 + 0x1000 * i.val + 4 * j) 4 = .readOk w ∧
      w.toNat = s.reg i / 2 ^ (32 * j) % 2 ^ 32) ∧
    (∀ v : Word, ∃ y : Nat,
      s.memWrite (0x10000 + 0x1000 * i.val + 4 * j) 4 v = ({ s with x := s.x.set i y }, .writeOk) ∧
      y / 2 ^ (32 * j) % 2 ^ 32 = v.toNat ∧
      (∀ k, k ≠ j → y / 2 ^ (32 * k) % 2 ^ 32 = s.reg i / 2 ^ (32 * k) % 2 ^ 32))

/-- 20_memory.md R57. -/
def Obligations.ContextWindowsReadTheContexts : Prop :=
  ∀ (s : State) (j : Nat) (v : Word), s.cfg.Legal → s.busy = false →
    (j < s.width / 32 →
      (∃ w : Word, s.memRead (0x20000 + 4 * j) 4 = .readOk w ∧ w.toNat = s.mn / 2 ^ (32 * j) % 2 ^ 32) ∧
      (∃ w : Word, s.memRead (0x21000 + 4 * j) 4 = .readOk w ∧ w.toNat = s.mr2 / 2 ^ (32 * j) % 2 ^ 32) ∧
      (∃ w : Word, s.memRead (0x22000 + 4 * j) 4 = .readOk w ∧ w.toNat = s.bn / 2 ^ (32 * j) % 2 ^ 32) ∧
      s.memWrite (0x20000 + 4 * j) 4 v = (s, .writeOk) ∧ s.memWrite (0x21000 + 4 * j) 4 v = (s, .writeOk) ∧
      s.memWrite (0x22000 + 4 * j) 4 v = (s, .writeOk)) ∧
    (j ≤ s.width / 32 →
      (∃ w : Word, s.memRead (0x23000 + 4 * j) 4 = .readOk w ∧ w.toNat = s.bmu / 2 ^ (32 * j) % 2 ^ 32) ∧
      s.memWrite (0x23000 + 4 * j) 4 v = (s, .writeOk))

/-- 20_memory.md sections 1 and 5 (R51, R52, R61) and 60_exceptions.md R206: a read, and a write that gets a BusError, change
nothing of RNTE; the host gets the reply. -/
def Obligations.ReadsAndBusErrorsChangeNothing : Prop :=
  ∀ (s : State) (addr n : Nat) (v : Word) (ts : List Turn),
    (s.turns = .host (.read addr n) :: ts →
      step s = .next { s with turns := ts, reply := some (s.memRead addr n) }) ∧
    (s.turns = .host (.write addr n v) :: ts → (s.memWrite addr n v).2 = .busError →
      step s = .next { s with turns := ts, reply := some .busError })

/-- 60_exceptions.md R210: `irq` is DONE and IE; every complete step raises it when enabled; W1C of DONE, acceptance of the next
command and clearing IE lower it; after reset it is low. -/
def Obligations.InterruptFollowsDoneAndEnable : Prop :=
  (∀ s : State, s.irq = (s.done && s.ie)) ∧
  (∀ (s t : State) (i : Instr), s.busy = true → exec i s = .next t → t.busy = false → t.irq = s.ie) ∧
  (∀ s : State, (s.raise .illegal).irq = s.ie) ∧
  (∀ (s : State) (v : Word), v.getLsbD 1 = true → (s.memWrite 0x004 4 v).1.irq = false) ∧
  (∀ (s : State) (w : Word), s.busy = false → (s.memWrite 0x000 4 w).1.irq = false) ∧
  (∀ (s : State) (v : Word), v.getLsbD 0 = false → (s.memWrite 0x008 4 v).1.irq = false) ∧
  (∀ c : Config, (State.resetOf c).irq = false ∧ (State.resetOf c).ie = false)

/-! ## The command life cycle (10_state.md section 7, 60_exceptions.md section 1) -/

/-- 60_exceptions.md R202: a command that ends in error, and an illegal word, write exactly ERR, ERRCODE, BUSY and DONE, with a
code of R201, and `irq` rises if IE = 1. -/
def Obligations.ErrorsWriteNothingElse : Prop :=
  (∀ (i : Instr) (s t : State), s.err = false → exec i s = .next t → t.err = true →
    ∃ e : Err, t = { s with err := true, errcode := e.code, busy := false, done := true, drawn := [] } ∧
      1 ≤ e.code.toNat ∧ e.code.toNat ≤ 8 ∧ (s.ie = true → t.irq = true)) ∧
  (∀ (s : State) (r : Reject), s.busy = true → s.turns = [] → decode s.cmd = .error r →
    ∃ t, step s = .next t ∧
      t = { s with err := true, errcode := 0x01, busy := false, done := true, drawn := [] } ∧
      (s.ie = true → t.irq = true))

/-- 10_state.md section 7 (R41, R42), 00_scope.md R8 and R9, 70_reset_and_hazards.md R238: an engine step of a command is a hold
on an empty RND port, one draw, or the one complete step; only ISPRIME, MAKEPRIME and RAND hold or draw; and a command that would
draw if there were a word holds where there is none. That a hold is the stuck state `rndHold` is the model's choice (log 3). -/
def Obligations.CommandStepIsHoldDrawOrCompletion : Prop :=
  ∀ (i : Instr) (s : State),
    ((exec i s = .fault .rndHold ∧ s.rnd = [] ∧ i.draws = true) ∨
    (∃ w ws, s.rnd = w :: ws ∧ i.draws = true ∧
      exec i s = .next { s with rnd := ws, drawn := s.drawn ++ [w], rndcnt := s.rndcnt + 1 }) ∨
    (∃ t, exec i s = .next t ∧ t.busy = false ∧ t.done = true ∧ t.drawn = [] ∧ t.cfg = s.cfg ∧ t.cmd = s.cmd ∧
      t.ovr = s.ovr ∧ t.ie = s.ie ∧ t.rndcnt = s.rndcnt ∧ t.rnd = s.rnd ∧ t.turns = s.turns ∧ t.reply = s.reply)) ∧
    (∀ (w : Word) (t : State), s.rnd = [] → exec i { s with rnd := [w] } = .next t → t.rnd = [] →
      exec i s = .fault .rndHold)

/-- 10_state.md sections 3, 6 and 7 (R27, R36, R41), 20_memory.md R58: while a command stays in flight nothing it reads changes,
whatever the host does; RNDCNT at most counts one draw a step. -/
def Obligations.NothingTheCommandReadsChangesInFlight : Prop :=
  ∀ s t : State, s.busy = true → step s = .next t → t.busy = true →
    t.x = s.x ∧ t.cmd = s.cmd ∧ t.cfg = s.cfg ∧ t.err = s.err ∧ t.errcode = s.errcode ∧
    (t.flagEq = s.flagEq ∧ t.flagLt = s.flagLt ∧ t.flagOdd = s.flagOdd ∧ t.flagPrime = s.flagPrime ∧
      t.flagNone = s.flagNone) ∧
    (t.mvalid = s.mvalid ∧ t.mn = s.mn ∧ t.mnp = s.mnp ∧ t.mr2 = s.mr2) ∧
    (t.bvalid = s.bvalid ∧ t.bn = s.bn ∧ t.bk = s.bk ∧ t.bmu = s.bmu) ∧
    ((t.rndcnt = s.rndcnt ∧ t.drawn = s.drawn) ∨ (t.rndcnt = s.rndcnt + 1 ∧ t.drawn.length = s.drawn.length + 1))

/-- 10_state.md section 2 (R22): a flag is written only by the commands listed for it, in a complete step without error. -/
def Obligations.FlagsChangeOnlyByTheirCommands : Prop :=
  ∀ s t : State, s.turns.head? ≠ some .rst → step s = .next t →
    (t.flagEq ≠ s.flagEq ∨ t.flagLt ≠ s.flagLt →
      s.busy = true ∧ t.busy = false ∧ t.err = s.err ∧ ∃ ra rb, decode s.cmd = .ok (.cmp ra rb)) ∧
    (t.flagOdd ≠ s.flagOdd →
      s.busy = true ∧ t.busy = false ∧ t.err = s.err ∧ ∃ ra, decode s.cmd = .ok (.parity ra)) ∧
    (t.flagPrime ≠ s.flagPrime →
      s.busy = true ∧ t.busy = false ∧ t.err = s.err ∧
        ((∃ ra imm, decode s.cmd = .ok (.isprime ra imm)) ∨ ∃ rd ra imm, decode s.cmd = .ok (.makeprime rd ra imm))) ∧
    (t.flagNone ≠ s.flagNone →
      s.busy = true ∧ t.busy = false ∧ t.err = s.err ∧ ∃ rd ra rb, decode s.cmd = .ok (.modinv rd ra rb))

/-- 10_state.md section 4 (R31, R32): a unit context is written by its set-up command and by reset, by nothing else. -/
def Obligations.ContextsChangeOnlyByTheirSetUp : Prop :=
  ∀ s t : State, s.turns.head? ≠ some .rst → step s = .next t →
    ((t.mvalid, t.mn, t.mnp, t.mr2) ≠ (s.mvalid, s.mn, s.mnp, s.mr2) →
      s.busy = true ∧ t.busy = false ∧ ∃ ra, decode s.cmd = .ok (.montset ra)) ∧
    ((t.bvalid, t.bn, t.bk, t.bmu) ≠ (s.bvalid, s.bn, s.bk, s.bmu) →
      s.busy = true ∧ t.busy = false ∧ ∃ ra, decode s.cmd = .ok (.barset ra))

/-- 10_state.md section 1 (R21): an operand register changes only by reset, by a host write to its window while BUSY = 0, or in
the complete step without error of a command whose `rd` it is. -/
def Obligations.RegistersChangeOnlyByHostOrDestination : Prop :=
  ∀ (s t : State) (i : Reg), s.turns.head? ≠ some .rst → step s = .next t → t.reg i ≠ s.reg i →
    (s.busy = false ∧ ∃ addr v ts, s.turns = .host (.write addr 4 v) :: ts ∧
      0x10000 + 0x1000 * i.val ≤ addr ∧ addr < 0x11000 + 0x1000 * i.val) ∨
    (s.busy = true ∧ t.busy = false ∧ t.err = s.err ∧ ∃ c, decode s.cmd = .ok c ∧ c.dest = some i)

/-- 10_state.md section 6 (R36), 70_reset_and_hazards.md R237: MULMOD, POWMOD, ISPRIME and MAKEPRIME neither read nor write the
architected contexts. -/
def Obligations.PipelineIgnoresUnitContexts : Prop :=
  ∀ (i : Instr) (s : State) (mv : Bool) (mn : Nat) (mnp : Word) (mr2 : Nat) (bv : Bool) (bn bk bmu : Nat),
    i.pipeline = true →
    exec i { s with mvalid := mv, mn := mn, mnp := mnp, mr2 := mr2, bvalid := bv, bn := bn, bk := bk, bmu := bmu } =
      match exec i s with
      | .next t => .next { t with
          mvalid := mv, mn := mn, mnp := mnp, mr2 := mr2, bvalid := bv, bn := bn, bk := bk, bmu := bmu }
      | .fault f => .fault f
      | .refused r => .refused r

/-- 10_state.md section 7 (R44): the engine's small steps are the big step. If a command asks for a word on every proper prefix
of ws and completes on ws, then ws.length draws and the complete step, from acceptance on, end in that state, with RNDCNT
ws.length further and the rest of the RND words left for the next command. -/
def Obligations.SmallStepsAreTheBigStep : Prop :=
  ∀ (s t : State) (i : Instr) (ws more : List Word),
    s.busy = true → s.turns = [] → s.drawn = [] → decode s.cmd = .ok i → s.rnd = ws ++ more →
    (∀ p q, p ++ q = ws → q ≠ [] → exec i { s with drawn := p, rnd := [] } = .fault .rndHold) →
    exec i { s with drawn := ws, rnd := more, rndcnt := s.rndcnt + BitVec.ofNat 32 ws.length } = .next t →
    t.busy = false →
    Sys2Proof.core.run (ws.length + 1) s = .next t

/-- 20_memory.md section 7 (R66): an evaluation never depends on words after the ones it used, and the engine never draws a word
the command does not use. -/
def Obligations.EngineDrawsExactlyTheWordsItUses : Prop :=
  (∀ (n it : Nat) (ws more : List Word) (r : Bool × List Word),
    isPrime n it ws = some r → isPrime n it (ws ++ more) = some (r.1, r.2 ++ more)) ∧
  (∀ (n it : Nat) (ws : List Word) (w : Word) (r : Bool × List Word),
    isPrime n it ws = none → isPrime n it (ws ++ [w]) = some r → r.2 = []) ∧
  (∀ (bits it : Nat) (ws more : List Word) (r : Nat × List Word), 2 ≤ bits →
    makePrime bits it ws = some r → makePrime bits it (ws ++ more) = some (r.1, r.2 ++ more)) ∧
  (∀ (bits it : Nat) (ws : List Word) (w : Word) (r : Nat × List Word), 2 ≤ bits →
    makePrime bits it ws = none → makePrime bits it (ws ++ [w]) = some r → r.2 = [])

/-! ## Data movement and exact integer arithmetic (40_data_movement.md, 41_integer_arithmetic.md) -/

/-- 40_data_movement.md R100, R101, R102. -/
def Obligations.DataMovementCommands : Prop :=
  ∀ (s : State) (rd ra : Reg) (imm : Nat), imm < 65536 →
    (OnlyWordOf .nop 0x00000000 ∧ exec .nop s = .next { s with busy := false, done := true, drawn := [] }) ∧
    (OnlyWordOf (.li rd imm) (formatI 0x01 rd 0 imm) ∧
      exec (.li rd imm) s = .next { s with x := s.x.set rd imm, busy := false, done := true, drawn := [] }) ∧
    (OnlyWordOf (.mov rd ra) (formatR 0x02 rd ra 0 0) ∧
      exec (.mov rd ra) s = .next { s with x := s.x.set rd (s.x[ra]), busy := false, done := true, drawn := [] })

/-- 41_integer_arithmetic.md R111, R113, R115: the exact result, or OVERFLOW and nothing written. -/
def Obligations.ExactSumProductAndShift : Prop :=
  ∀ (s : State) (rd ra rb : Reg) (imm : Nat), imm < 65536 →
    (OnlyWordOf (.add rd ra rb) (formatR 0x10 rd ra rb 0) ∧
      OnlyWordOf (.mul rd ra rb) (formatR 0x12 rd ra rb 0) ∧ OnlyWordOf (.shl rd ra imm) (formatI 0x14 rd ra imm)) ∧
    (s.x[ra] + s.x[rb] < 2 ^ s.width → exec (.add rd ra rb) s =
      .next { s with x := s.x.set rd (s.x[ra] + s.x[rb]), busy := false, done := true, drawn := [] }) ∧
    (2 ^ s.width ≤ s.x[ra] + s.x[rb] → exec (.add rd ra rb) s =
      .next { s with err := true, errcode := 0x06, busy := false, done := true, drawn := [] }) ∧
    (s.x[ra] * s.x[rb] < 2 ^ s.width → exec (.mul rd ra rb) s =
      .next { s with x := s.x.set rd (s.x[ra] * s.x[rb]), busy := false, done := true, drawn := [] }) ∧
    (2 ^ s.width ≤ s.x[ra] * s.x[rb] → exec (.mul rd ra rb) s =
      .next { s with err := true, errcode := 0x06, busy := false, done := true, drawn := [] }) ∧
    (s.x[ra] * 2 ^ imm < 2 ^ s.width → exec (.shl rd ra imm) s =
      .next { s with x := s.x.set rd (s.x[ra] * 2 ^ imm), busy := false, done := true, drawn := [] }) ∧
    (2 ^ s.width ≤ s.x[ra] * 2 ^ imm → exec (.shl rd ra imm) s =
      .next { s with err := true, errcode := 0x06, busy := false, done := true, drawn := [] })

/-- 41_integer_arithmetic.md R112. -/
def Obligations.ExactDifferenceOrNegative : Prop :=
  ∀ (s : State) (rd ra rb : Reg),
    OnlyWordOf (.sub rd ra rb) (formatR 0x11 rd ra rb 0) ∧
    (s.x[rb] ≤ s.x[ra] → exec (.sub rd ra rb) s =
      .next { s with x := s.x.set rd (s.x[ra] - s.x[rb]), busy := false, done := true, drawn := [] }) ∧
    (s.x[ra] < s.x[rb] → exec (.sub rd ra rb) s =
      .next { s with err := true, errcode := 0x07, busy := false, done := true, drawn := [] })

/-- 41_integer_arithmetic.md R114: `r = a mod b`, the r below b that differs from a by a multiple of b (00_scope.md R10). -/
def Obligations.LeastResidueOrZeroModulus : Prop :=
  ∀ (s : State) (rd ra rb : Reg),
    OnlyWordOf (.mod rd ra rb) (formatR 0x13 rd ra rb 0) ∧
    (s.x[rb] ≠ 0 → ∃ r q, r < s.x[rb] ∧ s.x[ra] = q * s.x[rb] + r ∧ exec (.mod rd ra rb) s =
      .next { s with x := s.x.set rd r, busy := false, done := true, drawn := [] }) ∧
    (s.x[rb] = 0 → exec (.mod rd ra rb) s =
      .next { s with err := true, errcode := 0x02, busy := false, done := true, drawn := [] })

/-- 41_integer_arithmetic.md R116: bits shifted out are lost, so a count of at least bitlen gives 0. -/
def Obligations.LogicalShiftRight : Prop :=
  ∀ (s : State) (rd ra : Reg) (imm : Nat), imm < 65536 →
    OnlyWordOf (.shr rd ra imm) (formatI 0x15 rd ra imm) ∧
    (∃ y, (∀ k, y.testBit k = s.x[ra].testBit (imm + k)) ∧ (s.x[ra] < 2 ^ imm → y = 0) ∧
      y = s.x[ra] / 2 ^ imm ∧
      exec (.shr rd ra imm) s = .next { s with x := s.x.set rd y, busy := false, done := true, drawn := [] })

/-- 41_integer_arithmetic.md R117, R118: ODD is bit 0, EQ and LT are the unsigned comparison, nothing else is written. -/
def Obligations.ParityAndComparisonFlags : Prop :=
  ∀ (s : State) (ra rb : Reg),
    OnlyWordOf (.parity ra) (formatR 0x16 0 ra 0 0) ∧ OnlyWordOf (.cmp ra rb) (formatR 0x17 0 ra rb 0) ∧
    exec (.parity ra) s =
      .next { s with flagOdd := s.x[ra].testBit 0, busy := false, done := true, drawn := [] } ∧
    ∃ eq lt : Bool, (eq = true ↔ s.x[ra] = s.x[rb]) ∧ (lt = true ↔ s.x[ra] < s.x[rb]) ∧ ¬ (eq = true ∧ lt = true) ∧
      exec (.cmp ra rb) s =
        .next { s with flagEq := eq, flagLt := lt, busy := false, done := true, drawn := [] }

/-! ## The Euclid unit (42_gcd_modinv.md) -/

/-- 42_gcd_modinv.md R130, R131: GCD writes the greatest common divisor, for every pair of operands. -/
def Obligations.GcdIsTheGreatestCommonDivisor : Prop :=
  ∀ (s : State) (rd ra rb : Reg),
    OnlyWordOf (.gcd rd ra rb) (formatR 0x20 rd ra rb 0) ∧
    exec (.gcd rd ra rb) s =
      .next { s with x := s.x.set rd (Nat.gcd s.x[ra] s.x[rb]), busy := false, done := true, drawn := [] }

/-- 42_gcd_modinv.md R133, with R132 and R134: ZEROMOD for modulus 0; NONE and the old destination where no inverse exists;
else the inverse in [0, n), and NONE cleared. -/
def Obligations.ModinvWritesTheInverseOrNone : Prop :=
  ∀ (s : State) (rd ra rb : Reg),
    OnlyWordOf (.modinv rd ra rb) (formatR 0x21 rd ra rb 0) ∧
    (s.x[rb] = 0 → exec (.modinv rd ra rb) s =
      .next { s with err := true, errcode := 0x02, busy := false, done := true, drawn := [] }) ∧
    (s.x[rb] ≠ 0 → 1 < Nat.gcd s.x[ra] s.x[rb] → exec (.modinv rd ra rb) s =
      .next { s with flagNone := true, busy := false, done := true, drawn := [] }) ∧
    (s.x[rb] ≠ 0 → Nat.gcd s.x[ra] s.x[rb] = 1 → ∃ i, i < s.x[rb] ∧ s.x[ra] * i % s.x[rb] = 1 % s.x[rb] ∧
      exec (.modinv rd ra rb) s =
        .next { s with x := s.x.set rd i, flagNone := false, busy := false, done := true, drawn := [] })

/-! ## The Barrett engine (43_barrett.md) -/

/-- 43_barrett.md R142, with R141: BARSET computes `BarSetup` and touches nothing else; ZEROMOD keeps the old context. -/
def Obligations.BarsetComputesTheContext : Prop :=
  ∀ (s : State) (ra : Reg),
    OnlyWordOf (.barset ra) (formatR 0x38 0 ra 0 0) ∧
    (s.x[ra] = 0 → exec (.barset ra) s =
      .next { s with err := true, errcode := 0x02, busy := false, done := true, drawn := [] }) ∧
    (s.x[ra] ≠ 0 → ∃ k mu, 1 ≤ k ∧ 2 ^ (k - 1) ≤ s.x[ra] ∧ s.x[ra] < 2 ^ k ∧ mu = 2 ^ (2 * k) / s.x[ra] ∧
      2 ^ k < mu ∧ mu ≤ 2 ^ (k + 1) ∧ (mu = 2 ^ (k + 1) ↔ s.x[ra] = 2 ^ (k - 1)) ∧
      exec (.barset ra) s = .next { s with
        bvalid := true, bn := s.x[ra], bk := k, bmu := mu, busy := false, done := true, drawn := [] })

/-- 43_barrett.md R143: for `x < 2^(2k)` the estimate is short by at most two and the engine's result is `x mod N`. -/
def Obligations.BarrettReductionIsExact : Prop :=
  ∀ n x k mu : Nat, 1 ≤ n → barSetup n = (n, k, mu) → x < 2 ^ (2 * k) →
    (let q3 := x / 2 ^ (k - 1) * mu / 2 ^ (k + 1); q3 ≤ x / n ∧ x / n ≤ q3 + 2) ∧
    barReduce x n k mu = x % n

/-- 43_barrett.md R144, R145, under the context invariant of 10_state.md R32: NOCTX, RANGE, else the exact residue. -/
def Obligations.BarrettCommandsReduceExactly : Prop :=
  ∀ (s : State) (rd ra rb : Reg), BarCtx s →
    (OnlyWordOf (.barred rd ra) (formatR 0x39 rd ra 0 0) ∧ OnlyWordOf (.barmul rd ra rb) (formatR 0x3A rd ra rb 0)) ∧
    (s.bvalid = false →
      exec (.barred rd ra) s = .next { s with err := true, errcode := 0x04, busy := false, done := true, drawn := [] } ∧
      exec (.barmul rd ra rb) s = .next { s with err := true, errcode := 0x04, busy := false, done := true, drawn := [] }) ∧
    (s.bvalid = true →
      (2 ^ (2 * s.bk) ≤ s.x[ra] → exec (.barred rd ra) s =
        .next { s with err := true, errcode := 0x05, busy := false, done := true, drawn := [] }) ∧
      (s.x[ra] < 2 ^ (2 * s.bk) → exec (.barred rd ra) s =
        .next { s with x := s.x.set rd (s.x[ra] % s.bn), busy := false, done := true, drawn := [] }) ∧
      (s.bn ≤ s.x[ra] ∨ s.bn ≤ s.x[rb] → exec (.barmul rd ra rb) s =
        .next { s with err := true, errcode := 0x05, busy := false, done := true, drawn := [] }) ∧
      (s.x[ra] < s.bn → s.x[rb] < s.bn → exec (.barmul rd ra rb) s =
        .next { s with x := s.x.set rd (s.x[ra] * s.x[rb] % s.bn), busy := false, done := true, drawn := [] }))

/-! ## The Montgomery multiplier (44_montgomery.md) -/

/-- 44_montgomery.md R152, with R151: MONTSET computes `MontSetup`; ZEROMOD before EVENMOD; errors keep the old context. -/
def Obligations.MontsetComputesTheContext : Prop :=
  ∀ (s : State) (ra : Reg),
    OnlyWordOf (.montset ra) (formatR 0x30 0 ra 0 0) ∧
    (s.x[ra] = 0 → exec (.montset ra) s =
      .next { s with err := true, errcode := 0x02, busy := false, done := true, drawn := [] }) ∧
    (s.x[ra] ≠ 0 → s.x[ra] % 2 = 0 → exec (.montset ra) s =
      .next { s with err := true, errcode := 0x03, busy := false, done := true, drawn := [] }) ∧
    (s.x[ra] % 2 = 1 → ∃ np : Word, np.toNat * s.x[ra] % 2 ^ 32 = 2 ^ 32 - 1 ∧
      exec (.montset ra) s = .next { s with
        mvalid := true, mn := s.x[ra], mnp := np, mr2 := 2 ^ (2 * s.width) % s.x[ra],
        busy := false, done := true, drawn := [] })

/-- 44_montgomery.md R153: for odd N and `t < N * 2^W`, `Redc(t, N)` is the r in [0, N) with `r * 2^W = t (mod N)`, and
`MontMul(a, b, N)` is it of the product. -/
def Obligations.RedcDividesByTheRadix : Prop :=
  ∀ w n t a b : Nat, n % 2 = 1 → n < 2 ^ w → t < n * 2 ^ w → a < n → b < n →
    redc w t n < n ∧ redc w t n * 2 ^ w % n = t % n ∧
    montMul w a b n < n ∧ montMul w a b n * 2 ^ w % n = a * b % n

/-- 44_montgomery.md R154, R155, R156, under the context invariant of 10_state.md R31: NOCTX, then RANGE, else the result. -/
def Obligations.MontgomeryCommandsComputeTheirForms : Prop :=
  ∀ (s : State) (rd ra rb : Reg), MontCtx s →
    (OnlyWordOf (.montmul rd ra rb) (formatR 0x31 rd ra rb 0) ∧ OnlyWordOf (.tomont rd ra) (formatR 0x32 rd ra 0 0) ∧
      OnlyWordOf (.frommont rd ra) (formatR 0x33 rd ra 0 0)) ∧
    (s.mvalid = false → ∀ i ∈ [Instr.montmul rd ra rb, Instr.tomont rd ra, Instr.frommont rd ra],
      exec i s = .next { s with err := true, errcode := 0x04, busy := false, done := true, drawn := [] }) ∧
    (s.mvalid = true → s.mn ≤ s.x[ra] →
      ∀ i ∈ [Instr.montmul rd ra rb, Instr.tomont rd ra, Instr.frommont rd ra],
        exec i s = .next { s with err := true, errcode := 0x05, busy := false, done := true, drawn := [] }) ∧
    (s.mvalid = true → s.mn ≤ s.x[rb] →
      exec (.montmul rd ra rb) s =
        .next { s with err := true, errcode := 0x05, busy := false, done := true, drawn := [] }) ∧
    (s.mvalid = true → s.x[ra] < s.mn → s.x[rb] < s.mn → ∃ r, r < s.mn ∧
      r * 2 ^ s.width % s.mn = s.x[ra] * s.x[rb] % s.mn ∧
      exec (.montmul rd ra rb) s = .next { s with x := s.x.set rd r, busy := false, done := true, drawn := [] }) ∧
    (s.mvalid = true → s.x[ra] < s.mn →
      exec (.tomont rd ra) s = .next { s with
        x := s.x.set rd (s.x[ra] * 2 ^ s.width % s.mn), busy := false, done := true, drawn := [] } ∧
      ∃ r, r < s.mn ∧ r * 2 ^ s.width % s.mn = s.x[ra] ∧
        exec (.frommont rd ra) s = .next { s with x := s.x.set rd r, busy := false, done := true, drawn := [] })

/-- 44_montgomery.md R158: TOMONT twice, MONTMUL and FROMMONT give the source's product, and one operand in Montgomery form is
enough for MONTMUL alone. -/
def Obligations.MontgomeryRouteIsTheModularProduct : Prop :=
  ∀ w n r2 a b : Nat, n % 2 = 1 → n < 2 ^ w → r2 = 2 ^ (2 * w) % n → a < n → b < n →
    redc w (montMul w (redc w (a * r2) n) (redc w (b * r2) n) n) n = a * b % n ∧
    montMul w (redc w (a * r2) n) b n = a * b % n ∧ montMul w a (redc w (b * r2) n) n = a * b % n

/-- 44_montgomery.md R157: the limb-serial multiplication with the 32-bit MNP gives `MontMul`, for all legal inputs. -/
def Obligations.SerialMontgomeryAgrees : Prop :=
  ∀ limbs n a b : Nat, n % 2 = 1 → n < 2 ^ (32 * limbs) → a < n → b < n →
    montMulSerial limbs a b n (montSetup (32 * limbs) n).2.1 = montMul (32 * limbs) a b n

/-! ## The modular exponentiation pipeline (45_modexp.md) -/

/-- 45_modexp.md R165, R170, with R168: the exact product and the exact power modulo n for every modulus of either parity and
every operand; ZEROMOD for modulus 0. -/
def Obligations.ModularProductAndPower : Prop :=
  ∀ (s : State) (rd ra rb rc : Reg),
    (OnlyWordOf (.mulmod rd ra rb rc) (formatR 0x22 rd ra rb rc) ∧
      OnlyWordOf (.powmod rd ra rb rc) (formatR 0x23 rd ra rb rc)) ∧
    (s.x[rc] = 0 → ∀ i ∈ [Instr.mulmod rd ra rb rc, Instr.powmod rd ra rb rc],
      exec i s = .next { s with err := true, errcode := 0x02, busy := false, done := true, drawn := [] }) ∧
    (s.x[rc] ≠ 0 →
      exec (.mulmod rd ra rb rc) s = .next { s with
        x := s.x.set rd (s.x[ra] * s.x[rb] % s.x[rc]), busy := false, done := true, drawn := [] } ∧
      exec (.powmod rd ra rb rc) s = .next { s with
        x := s.x.set rd (s.x[ra] ^ s.x[rb] % s.x[rc]), busy := false, done := true, drawn := [] })

/-- 45_modexp.md R169: both unit realisations return `powermod` for every modulus of their parity. -/
def Obligations.BothPipelineRealisationsArePowermod : Prop :=
  ∀ w base exponent n : Nat,
    (n % 2 = 1 → n < 2 ^ w → powerModMont w base exponent n = powerMod base exponent n) ∧
    (1 ≤ n → n % 2 = 0 → powerModBar base exponent n = powerMod base exponent n)

/-- 45_modexp.md section 2 (R171 (a)): with distinct primes p and q and `e * d = 1 (mod (p-1)(q-1))`, decryption undoes
encryption on every m below n. -/
def Obligations.DecryptionUndoesEncryption : Prop :=
  ∀ p q e d m : Nat, p.Prime → q.Prime → p ≠ q → e * d % ((p - 1) * (q - 1)) = 1 → m < p * q →
    powerMod (powerMod m e (p * q)) d (p * q) = m

/-! ## The Miller-Rabin circuit and the prime search (46_miller_rabin.md) -/

/-- 46_miller_rabin.md section 2 (R177): `DrawBits(k)` uses `ceil(k / 32)` words, first word least significant, excess high bits
dropped, and asks for more where they are not there. -/
def Obligations.DrawBitsAssemblesLittleEndian : Prop :=
  ∀ (k : Nat) (ws : List Word),
    (ws.length < (k + 31) / 32 → drawBits k ws = none) ∧
    ((k + 31) / 32 ≤ ws.length →
      drawBits k ws = some (wordsValue ((k + 31) / 32) ws % 2 ^ k, ws.drop ((k + 31) / 32)))

/-- 46_miller_rabin.md section 2 (R178): `DrawBelow(m)` takes the first try of k = bitlen(m - 1) bits that is below m. -/
def Obligations.DrawBelowRetriesUntilBelow : Prop :=
  ∀ (m k v : Nat) (ws rest : List Word), 1 ≤ m → m - 1 < 2 ^ k → (∀ k', m - 1 < 2 ^ k' → k ≤ k') →
    (drawBits k ws = none → drawBelow m ws = none) ∧
    (drawBits k ws = some (v, rest) → v < m → drawBelow m ws = some (v, rest)) ∧
    (drawBits k ws = some (v, rest) → m ≤ v → drawBelow m ws = drawBelow m rest) ∧
    (drawBelow m ws = some (v, rest) → v < m)

/-- 46_miller_rabin.md R179: `Factor(n)` for odd n >= 3 is the unique (r, s) with r odd, s >= 1 and `n - 1 = r * 2^s`. -/
def Obligations.FactorSplitsOffThePowerOfTwo : Prop :=
  ∀ n : Nat, n % 2 = 1 → 3 ≤ n →
    (factor n).1 % 2 = 1 ∧ 1 ≤ (factor n).2 ∧ n - 1 = (factor n).1 * 2 ^ (factor n).2 ∧
    (∀ r s : Nat, r % 2 = 1 → n - 1 = r * 2 ^ s → (r, s) = factor n)

/-- 46_miller_rabin.md section 3 (R180, R181): the rounds of `isprime` for odd n >= 5: each draws its witness `a` below n - 1,
goes on if the witness passes in the closed form of R181, and ends the test at the first witness that does not. -/
def Obligations.PrimalityTestRunsItsRounds : Prop :=
  ∀ (n r s it v : Nat) (ws rest : List Word), 5 ≤ n → n % 2 = 1 → r % 2 = 1 → n - 1 = r * 2 ^ s →
    isPrime n 0 ws = some (true, ws) ∧
    (drawBelow (n - 3) ws = none → isPrime n (it + 1) ws = none) ∧
    (drawBelow (n - 3) ws = some (v, rest) →
      ((2 + v) ^ r % n = 1 ∨ ∃ j, j ≤ s - 1 ∧ (2 + v) ^ (r * 2 ^ j) % n = n - 1) →
      isPrime n (it + 1) ws = isPrime n it rest) ∧
    (drawBelow (n - 3) ws = some (v, rest) →
      ¬ ((2 + v) ^ r % n = 1 ∨ ∃ j, j ≤ s - 1 ∧ (2 + v) ^ (r * 2 ^ j) % n = n - 1) →
      isPrime n (it + 1) ws = some (false, rest))

/-- 46_miller_rabin.md section 3 (R181): a prime is never rejected, whatever the words; a verdict of composite is always
right. -/
def Obligations.CompositeVerdictIsAlwaysRight : Prop :=
  ∀ (n it : Nat) (ws : List Word) (r : Bool × List Word), isPrime n it ws = some r →
    (n.Prime → r.1 = true) ∧ (r.1 = false → ¬ n.Prime)

/-- 46_miller_rabin.md R182: PRIME is the verdict of `isprime` and nothing else is written; the early outcomes need no word. -/
def Obligations.IsprimeWritesTheVerdict : Prop :=
  ∀ (s : State) (ra : Reg) (imm : Nat), imm < 65536 →
    OnlyWordOf (.isprime ra imm) (formatI 0x40 0 ra imm) ∧
    (∀ b rest, isPrime s.x[ra] imm s.drawn = some (b, rest) → exec (.isprime ra imm) s =
      .next { s with flagPrime := b, busy := false, done := true, drawn := [] }) ∧
    (s.x[ra] < 2 ∨ (s.x[ra] % 2 = 0 ∧ s.x[ra] ≠ 2) → exec (.isprime ra imm) s =
      .next { s with flagPrime := false, busy := false, done := true, drawn := [] }) ∧
    (s.x[ra] = 2 ∨ s.x[ra] = 3 ∨ (imm = 0 ∧ 5 ≤ s.x[ra] ∧ s.x[ra] % 2 = 1) → exec (.isprime ra imm) s =
      .next { s with flagPrime := true, busy := false, done := true, drawn := [] }) ∧
    (isPrime s.x[ra] imm s.drawn = none → ∀ w ws, s.rnd = w :: ws → exec (.isprime ra imm) s =
      .next { s with rnd := ws, drawn := s.drawn ++ [w], rndcnt := s.rndcnt + 1 })

/-- 46_miller_rabin.md R184, with R177 and R183: PARAM before any draw; then `ceil((bits-1)/32)` draws; then a number of exactly
`bits` bits, the top bit forced and the rest drawn. -/
def Obligations.RandWritesACandidate : Prop :=
  ∀ (s : State) (rd ra : Reg),
    OnlyWordOf (.rand rd ra) (formatR 0x42 rd ra 0 0) ∧
    (s.x[ra] < 1 ∨ s.width < s.x[ra] → exec (.rand rd ra) s =
      .next { s with err := true, errcode := 0x08, busy := false, done := true, drawn := [] }) ∧
    (1 ≤ s.x[ra] → s.x[ra] ≤ s.width →
      (s.drawn.length < (s.x[ra] - 1 + 31) / 32 → ∀ w ws, s.rnd = w :: ws → exec (.rand rd ra) s =
        .next { s with rnd := ws, drawn := s.drawn ++ [w], rndcnt := s.rndcnt + 1 }) ∧
      ((s.x[ra] - 1 + 31) / 32 ≤ s.drawn.length →
        ∃ y, y = 2 ^ (s.x[ra] - 1) + wordsValue ((s.x[ra] - 1 + 31) / 32) s.drawn % 2 ^ (s.x[ra] - 1) ∧
          2 ^ (s.x[ra] - 1) ≤ y ∧ y < 2 ^ s.x[ra] ∧
          exec (.rand rd ra) s = .next { s with x := s.x.set rd y, busy := false, done := true, drawn := [] }))

/-- 46_miller_rabin.md section 4 (R185): the prime search draws a candidate, tests it, returns it if accepted, and else starts
again from the words not used. -/
def Obligations.MakeprimeSearchesCandidates : Prop :=
  ∀ (bits it c : Nat) (ws rest rest' : List Word), 2 ≤ bits →
    (candidate bits ws = none → makePrime bits it ws = none) ∧
    (candidate bits ws = some (c, rest) →
      (isPrime c it rest = none → makePrime bits it ws = none) ∧
      (isPrime c it rest = some (true, rest') → makePrime bits it ws = some (c, rest')) ∧
      (isPrime c it rest = some (false, rest') → makePrime bits it ws = makePrime bits it rest'))

/-- 46_miller_rabin.md R186, with R183: PARAM before any draw; on acceptance the destination gets a number of exactly `bits`
bits and PRIME <- 1. -/
def Obligations.MakeprimeWritesAnAcceptedNumber : Prop :=
  ∀ (s : State) (rd ra : Reg) (imm : Nat), imm < 65536 →
    OnlyWordOf (.makeprime rd ra imm) (formatI 0x41 rd ra imm) ∧
    (s.x[ra] < 2 ∨ s.width < s.x[ra] → exec (.makeprime rd ra imm) s =
      .next { s with err := true, errcode := 0x08, busy := false, done := true, drawn := [] }) ∧
    (2 ≤ s.x[ra] → s.x[ra] ≤ s.width →
      (∀ c rest, makePrime s.x[ra] imm s.drawn = some (c, rest) →
        2 ^ (s.x[ra] - 1) ≤ c ∧ c < 2 ^ s.x[ra] ∧
        exec (.makeprime rd ra imm) s = .next { s with
          x := s.x.set rd c, flagPrime := true, busy := false, done := true, drawn := [] }) ∧
      (makePrime s.x[ra] imm s.drawn = none → ∀ w ws, s.rnd = w :: ws → exec (.makeprime rd ra imm) s =
        .next { s with rnd := ws, drawn := s.drawn ++ [w], rndcnt := s.rndcnt + 1 }))
end

