-- ==== Sys2Proof/Laws/State.lean ====
section
/-! SUPPORT. The fields of every update of State, one lemma per field, and reading a register after each update. -/

namespace Sys2Proof.Machine

variable (s : State)

theorem State.reg_eq (i : Reg) : s.reg i = s.x[i] := rfl

@[simp] theorem State.setReg_cfg (i : Reg) (v : Nat) : (s.setReg i v).cfg = s.cfg := rfl
@[simp] theorem State.setReg_x (i : Reg) (v : Nat) : (s.setReg i v).x = s.x.set i v := rfl
@[simp] theorem State.setReg_flagEq (i : Reg) (v : Nat) : (s.setReg i v).flagEq = s.flagEq := rfl
@[simp] theorem State.setReg_flagLt (i : Reg) (v : Nat) : (s.setReg i v).flagLt = s.flagLt := rfl
@[simp] theorem State.setReg_flagOdd (i : Reg) (v : Nat) : (s.setReg i v).flagOdd = s.flagOdd := rfl
@[simp] theorem State.setReg_flagPrime (i : Reg) (v : Nat) : (s.setReg i v).flagPrime = s.flagPrime := rfl
@[simp] theorem State.setReg_flagNone (i : Reg) (v : Nat) : (s.setReg i v).flagNone = s.flagNone := rfl
@[simp] theorem State.setReg_busy (i : Reg) (v : Nat) : (s.setReg i v).busy = s.busy := rfl
@[simp] theorem State.setReg_done (i : Reg) (v : Nat) : (s.setReg i v).done = s.done := rfl
@[simp] theorem State.setReg_err (i : Reg) (v : Nat) : (s.setReg i v).err = s.err := rfl
@[simp] theorem State.setReg_ovr (i : Reg) (v : Nat) : (s.setReg i v).ovr = s.ovr := rfl
@[simp] theorem State.setReg_ie (i : Reg) (v : Nat) : (s.setReg i v).ie = s.ie := rfl
@[simp] theorem State.setReg_cmd (i : Reg) (v : Nat) : (s.setReg i v).cmd = s.cmd := rfl
@[simp] theorem State.setReg_errcode (i : Reg) (v : Nat) : (s.setReg i v).errcode = s.errcode := rfl
@[simp] theorem State.setReg_rndcnt (i : Reg) (v : Nat) : (s.setReg i v).rndcnt = s.rndcnt := rfl
@[simp] theorem State.setReg_mvalid (i : Reg) (v : Nat) : (s.setReg i v).mvalid = s.mvalid := rfl
@[simp] theorem State.setReg_mn (i : Reg) (v : Nat) : (s.setReg i v).mn = s.mn := rfl
@[simp] theorem State.setReg_mnp (i : Reg) (v : Nat) : (s.setReg i v).mnp = s.mnp := rfl
@[simp] theorem State.setReg_mr2 (i : Reg) (v : Nat) : (s.setReg i v).mr2 = s.mr2 := rfl
@[simp] theorem State.setReg_bvalid (i : Reg) (v : Nat) : (s.setReg i v).bvalid = s.bvalid := rfl
@[simp] theorem State.setReg_bn (i : Reg) (v : Nat) : (s.setReg i v).bn = s.bn := rfl
@[simp] theorem State.setReg_bk (i : Reg) (v : Nat) : (s.setReg i v).bk = s.bk := rfl
@[simp] theorem State.setReg_bmu (i : Reg) (v : Nat) : (s.setReg i v).bmu = s.bmu := rfl
@[simp] theorem State.setReg_drawn (i : Reg) (v : Nat) : (s.setReg i v).drawn = s.drawn := rfl
@[simp] theorem State.setReg_rnd (i : Reg) (v : Nat) : (s.setReg i v).rnd = s.rnd := rfl
@[simp] theorem State.setReg_turns (i : Reg) (v : Nat) : (s.setReg i v).turns = s.turns := rfl
@[simp] theorem State.setReg_reply (i : Reg) (v : Nat) : (s.setReg i v).reply = s.reply := rfl
@[simp] theorem State.setReg_width (i : Reg) (v : Nat) : (s.setReg i v).width = s.width := rfl
@[simp] theorem State.setReg_reg (i j : Reg) (v : Nat) : (s.setReg i v).reg j = if i = j then v else s.reg j := by
  simp only [State.setReg, State.reg, Fin.getElem_fin, Vector.getElem_set, Fin.ext_iff]
theorem State.setReg_reg_same (i : Reg) (v : Nat) : (s.setReg i v).reg i = v := by simp
theorem State.setReg_reg_other (i j : Reg) (v : Nat) (h : i ≠ j) : (s.setReg i v).reg j = s.reg j := by simp [h]

@[simp] theorem State.setCompare_cfg (a b : Nat) : (s.setCompare a b).cfg = s.cfg := rfl
@[simp] theorem State.setCompare_x (a b : Nat) : (s.setCompare a b).x = s.x := rfl
@[simp] theorem State.setCompare_flagEq (a b : Nat) : (s.setCompare a b).flagEq = decide (a = b) := rfl
@[simp] theorem State.setCompare_flagLt (a b : Nat) : (s.setCompare a b).flagLt = decide (a < b) := rfl
@[simp] theorem State.setCompare_flagOdd (a b : Nat) : (s.setCompare a b).flagOdd = s.flagOdd := rfl
@[simp] theorem State.setCompare_flagPrime (a b : Nat) : (s.setCompare a b).flagPrime = s.flagPrime := rfl
@[simp] theorem State.setCompare_flagNone (a b : Nat) : (s.setCompare a b).flagNone = s.flagNone := rfl
@[simp] theorem State.setCompare_busy (a b : Nat) : (s.setCompare a b).busy = s.busy := rfl
@[simp] theorem State.setCompare_done (a b : Nat) : (s.setCompare a b).done = s.done := rfl
@[simp] theorem State.setCompare_err (a b : Nat) : (s.setCompare a b).err = s.err := rfl
@[simp] theorem State.setCompare_ovr (a b : Nat) : (s.setCompare a b).ovr = s.ovr := rfl
@[simp] theorem State.setCompare_ie (a b : Nat) : (s.setCompare a b).ie = s.ie := rfl
@[simp] theorem State.setCompare_cmd (a b : Nat) : (s.setCompare a b).cmd = s.cmd := rfl
@[simp] theorem State.setCompare_errcode (a b : Nat) : (s.setCompare a b).errcode = s.errcode := rfl
@[simp] theorem State.setCompare_rndcnt (a b : Nat) : (s.setCompare a b).rndcnt = s.rndcnt := rfl
@[simp] theorem State.setCompare_mvalid (a b : Nat) : (s.setCompare a b).mvalid = s.mvalid := rfl
@[simp] theorem State.setCompare_mn (a b : Nat) : (s.setCompare a b).mn = s.mn := rfl
@[simp] theorem State.setCompare_mnp (a b : Nat) : (s.setCompare a b).mnp = s.mnp := rfl
@[simp] theorem State.setCompare_mr2 (a b : Nat) : (s.setCompare a b).mr2 = s.mr2 := rfl
@[simp] theorem State.setCompare_bvalid (a b : Nat) : (s.setCompare a b).bvalid = s.bvalid := rfl
@[simp] theorem State.setCompare_bn (a b : Nat) : (s.setCompare a b).bn = s.bn := rfl
@[simp] theorem State.setCompare_bk (a b : Nat) : (s.setCompare a b).bk = s.bk := rfl
@[simp] theorem State.setCompare_bmu (a b : Nat) : (s.setCompare a b).bmu = s.bmu := rfl
@[simp] theorem State.setCompare_drawn (a b : Nat) : (s.setCompare a b).drawn = s.drawn := rfl
@[simp] theorem State.setCompare_rnd (a b : Nat) : (s.setCompare a b).rnd = s.rnd := rfl
@[simp] theorem State.setCompare_turns (a b : Nat) : (s.setCompare a b).turns = s.turns := rfl
@[simp] theorem State.setCompare_reply (a b : Nat) : (s.setCompare a b).reply = s.reply := rfl
@[simp] theorem State.setCompare_width (a b : Nat) : (s.setCompare a b).width = s.width := rfl
@[simp] theorem State.setCompare_reg (a b : Nat) (j : Reg) : (s.setCompare a b).reg j = s.reg j := rfl

@[simp] theorem State.setOdd_cfg (a : Nat) : (s.setOdd a).cfg = s.cfg := rfl
@[simp] theorem State.setOdd_x (a : Nat) : (s.setOdd a).x = s.x := rfl
@[simp] theorem State.setOdd_flagEq (a : Nat) : (s.setOdd a).flagEq = s.flagEq := rfl
@[simp] theorem State.setOdd_flagLt (a : Nat) : (s.setOdd a).flagLt = s.flagLt := rfl
@[simp] theorem State.setOdd_flagOdd (a : Nat) : (s.setOdd a).flagOdd = decide (a % 2 = 1) := rfl
@[simp] theorem State.setOdd_flagPrime (a : Nat) : (s.setOdd a).flagPrime = s.flagPrime := rfl
@[simp] theorem State.setOdd_flagNone (a : Nat) : (s.setOdd a).flagNone = s.flagNone := rfl
@[simp] theorem State.setOdd_busy (a : Nat) : (s.setOdd a).busy = s.busy := rfl
@[simp] theorem State.setOdd_done (a : Nat) : (s.setOdd a).done = s.done := rfl
@[simp] theorem State.setOdd_err (a : Nat) : (s.setOdd a).err = s.err := rfl
@[simp] theorem State.setOdd_ovr (a : Nat) : (s.setOdd a).ovr = s.ovr := rfl
@[simp] theorem State.setOdd_ie (a : Nat) : (s.setOdd a).ie = s.ie := rfl
@[simp] theorem State.setOdd_cmd (a : Nat) : (s.setOdd a).cmd = s.cmd := rfl
@[simp] theorem State.setOdd_errcode (a : Nat) : (s.setOdd a).errcode = s.errcode := rfl
@[simp] theorem State.setOdd_rndcnt (a : Nat) : (s.setOdd a).rndcnt = s.rndcnt := rfl
@[simp] theorem State.setOdd_mvalid (a : Nat) : (s.setOdd a).mvalid = s.mvalid := rfl
@[simp] theorem State.setOdd_mn (a : Nat) : (s.setOdd a).mn = s.mn := rfl
@[simp] theorem State.setOdd_mnp (a : Nat) : (s.setOdd a).mnp = s.mnp := rfl
@[simp] theorem State.setOdd_mr2 (a : Nat) : (s.setOdd a).mr2 = s.mr2 := rfl
@[simp] theorem State.setOdd_bvalid (a : Nat) : (s.setOdd a).bvalid = s.bvalid := rfl
@[simp] theorem State.setOdd_bn (a : Nat) : (s.setOdd a).bn = s.bn := rfl
@[simp] theorem State.setOdd_bk (a : Nat) : (s.setOdd a).bk = s.bk := rfl
@[simp] theorem State.setOdd_bmu (a : Nat) : (s.setOdd a).bmu = s.bmu := rfl
@[simp] theorem State.setOdd_drawn (a : Nat) : (s.setOdd a).drawn = s.drawn := rfl
@[simp] theorem State.setOdd_rnd (a : Nat) : (s.setOdd a).rnd = s.rnd := rfl
@[simp] theorem State.setOdd_turns (a : Nat) : (s.setOdd a).turns = s.turns := rfl
@[simp] theorem State.setOdd_reply (a : Nat) : (s.setOdd a).reply = s.reply := rfl
@[simp] theorem State.setOdd_width (a : Nat) : (s.setOdd a).width = s.width := rfl
@[simp] theorem State.setOdd_reg (a : Nat) (j : Reg) : (s.setOdd a).reg j = s.reg j := rfl

@[simp] theorem State.setPrime_cfg (b : Bool) : (s.setPrime b).cfg = s.cfg := rfl
@[simp] theorem State.setPrime_x (b : Bool) : (s.setPrime b).x = s.x := rfl
@[simp] theorem State.setPrime_flagEq (b : Bool) : (s.setPrime b).flagEq = s.flagEq := rfl
@[simp] theorem State.setPrime_flagLt (b : Bool) : (s.setPrime b).flagLt = s.flagLt := rfl
@[simp] theorem State.setPrime_flagOdd (b : Bool) : (s.setPrime b).flagOdd = s.flagOdd := rfl
@[simp] theorem State.setPrime_flagPrime (b : Bool) : (s.setPrime b).flagPrime = b := rfl
@[simp] theorem State.setPrime_flagNone (b : Bool) : (s.setPrime b).flagNone = s.flagNone := rfl
@[simp] theorem State.setPrime_busy (b : Bool) : (s.setPrime b).busy = s.busy := rfl
@[simp] theorem State.setPrime_done (b : Bool) : (s.setPrime b).done = s.done := rfl
@[simp] theorem State.setPrime_err (b : Bool) : (s.setPrime b).err = s.err := rfl
@[simp] theorem State.setPrime_ovr (b : Bool) : (s.setPrime b).ovr = s.ovr := rfl
@[simp] theorem State.setPrime_ie (b : Bool) : (s.setPrime b).ie = s.ie := rfl
@[simp] theorem State.setPrime_cmd (b : Bool) : (s.setPrime b).cmd = s.cmd := rfl
@[simp] theorem State.setPrime_errcode (b : Bool) : (s.setPrime b).errcode = s.errcode := rfl
@[simp] theorem State.setPrime_rndcnt (b : Bool) : (s.setPrime b).rndcnt = s.rndcnt := rfl
@[simp] theorem State.setPrime_mvalid (b : Bool) : (s.setPrime b).mvalid = s.mvalid := rfl
@[simp] theorem State.setPrime_mn (b : Bool) : (s.setPrime b).mn = s.mn := rfl
@[simp] theorem State.setPrime_mnp (b : Bool) : (s.setPrime b).mnp = s.mnp := rfl
@[simp] theorem State.setPrime_mr2 (b : Bool) : (s.setPrime b).mr2 = s.mr2 := rfl
@[simp] theorem State.setPrime_bvalid (b : Bool) : (s.setPrime b).bvalid = s.bvalid := rfl
@[simp] theorem State.setPrime_bn (b : Bool) : (s.setPrime b).bn = s.bn := rfl
@[simp] theorem State.setPrime_bk (b : Bool) : (s.setPrime b).bk = s.bk := rfl
@[simp] theorem State.setPrime_bmu (b : Bool) : (s.setPrime b).bmu = s.bmu := rfl
@[simp] theorem State.setPrime_drawn (b : Bool) : (s.setPrime b).drawn = s.drawn := rfl
@[simp] theorem State.setPrime_rnd (b : Bool) : (s.setPrime b).rnd = s.rnd := rfl
@[simp] theorem State.setPrime_turns (b : Bool) : (s.setPrime b).turns = s.turns := rfl
@[simp] theorem State.setPrime_reply (b : Bool) : (s.setPrime b).reply = s.reply := rfl
@[simp] theorem State.setPrime_width (b : Bool) : (s.setPrime b).width = s.width := rfl
@[simp] theorem State.setPrime_reg (b : Bool) (j : Reg) : (s.setPrime b).reg j = s.reg j := rfl

@[simp] theorem State.setNone_cfg (b : Bool) : (s.setNone b).cfg = s.cfg := rfl
@[simp] theorem State.setNone_x (b : Bool) : (s.setNone b).x = s.x := rfl
@[simp] theorem State.setNone_flagEq (b : Bool) : (s.setNone b).flagEq = s.flagEq := rfl
@[simp] theorem State.setNone_flagLt (b : Bool) : (s.setNone b).flagLt = s.flagLt := rfl
@[simp] theorem State.setNone_flagOdd (b : Bool) : (s.setNone b).flagOdd = s.flagOdd := rfl
@[simp] theorem State.setNone_flagPrime (b : Bool) : (s.setNone b).flagPrime = s.flagPrime := rfl
@[simp] theorem State.setNone_flagNone (b : Bool) : (s.setNone b).flagNone = b := rfl
@[simp] theorem State.setNone_busy (b : Bool) : (s.setNone b).busy = s.busy := rfl
@[simp] theorem State.setNone_done (b : Bool) : (s.setNone b).done = s.done := rfl
@[simp] theorem State.setNone_err (b : Bool) : (s.setNone b).err = s.err := rfl
@[simp] theorem State.setNone_ovr (b : Bool) : (s.setNone b).ovr = s.ovr := rfl
@[simp] theorem State.setNone_ie (b : Bool) : (s.setNone b).ie = s.ie := rfl
@[simp] theorem State.setNone_cmd (b : Bool) : (s.setNone b).cmd = s.cmd := rfl
@[simp] theorem State.setNone_errcode (b : Bool) : (s.setNone b).errcode = s.errcode := rfl
@[simp] theorem State.setNone_rndcnt (b : Bool) : (s.setNone b).rndcnt = s.rndcnt := rfl
@[simp] theorem State.setNone_mvalid (b : Bool) : (s.setNone b).mvalid = s.mvalid := rfl
@[simp] theorem State.setNone_mn (b : Bool) : (s.setNone b).mn = s.mn := rfl
@[simp] theorem State.setNone_mnp (b : Bool) : (s.setNone b).mnp = s.mnp := rfl
@[simp] theorem State.setNone_mr2 (b : Bool) : (s.setNone b).mr2 = s.mr2 := rfl
@[simp] theorem State.setNone_bvalid (b : Bool) : (s.setNone b).bvalid = s.bvalid := rfl
@[simp] theorem State.setNone_bn (b : Bool) : (s.setNone b).bn = s.bn := rfl
@[simp] theorem State.setNone_bk (b : Bool) : (s.setNone b).bk = s.bk := rfl
@[simp] theorem State.setNone_bmu (b : Bool) : (s.setNone b).bmu = s.bmu := rfl
@[simp] theorem State.setNone_drawn (b : Bool) : (s.setNone b).drawn = s.drawn := rfl
@[simp] theorem State.setNone_rnd (b : Bool) : (s.setNone b).rnd = s.rnd := rfl
@[simp] theorem State.setNone_turns (b : Bool) : (s.setNone b).turns = s.turns := rfl
@[simp] theorem State.setNone_reply (b : Bool) : (s.setNone b).reply = s.reply := rfl
@[simp] theorem State.setNone_width (b : Bool) : (s.setNone b).width = s.width := rfl
@[simp] theorem State.setNone_reg (b : Bool) (j : Reg) : (s.setNone b).reg j = s.reg j := rfl

@[simp] theorem State.finish_cfg : (s.finish).cfg = s.cfg := rfl
@[simp] theorem State.finish_x : (s.finish).x = s.x := rfl
@[simp] theorem State.finish_flagEq : (s.finish).flagEq = s.flagEq := rfl
@[simp] theorem State.finish_flagLt : (s.finish).flagLt = s.flagLt := rfl
@[simp] theorem State.finish_flagOdd : (s.finish).flagOdd = s.flagOdd := rfl
@[simp] theorem State.finish_flagPrime : (s.finish).flagPrime = s.flagPrime := rfl
@[simp] theorem State.finish_flagNone : (s.finish).flagNone = s.flagNone := rfl
@[simp] theorem State.finish_busy : (s.finish).busy = false := rfl
@[simp] theorem State.finish_done : (s.finish).done = true := rfl
@[simp] theorem State.finish_err : (s.finish).err = s.err := rfl
@[simp] theorem State.finish_ovr : (s.finish).ovr = s.ovr := rfl
@[simp] theorem State.finish_ie : (s.finish).ie = s.ie := rfl
@[simp] theorem State.finish_cmd : (s.finish).cmd = s.cmd := rfl
@[simp] theorem State.finish_errcode : (s.finish).errcode = s.errcode := rfl
@[simp] theorem State.finish_rndcnt : (s.finish).rndcnt = s.rndcnt := rfl
@[simp] theorem State.finish_mvalid : (s.finish).mvalid = s.mvalid := rfl
@[simp] theorem State.finish_mn : (s.finish).mn = s.mn := rfl
@[simp] theorem State.finish_mnp : (s.finish).mnp = s.mnp := rfl
@[simp] theorem State.finish_mr2 : (s.finish).mr2 = s.mr2 := rfl
@[simp] theorem State.finish_bvalid : (s.finish).bvalid = s.bvalid := rfl
@[simp] theorem State.finish_bn : (s.finish).bn = s.bn := rfl
@[simp] theorem State.finish_bk : (s.finish).bk = s.bk := rfl
@[simp] theorem State.finish_bmu : (s.finish).bmu = s.bmu := rfl
@[simp] theorem State.finish_drawn : (s.finish).drawn = [] := rfl
@[simp] theorem State.finish_rnd : (s.finish).rnd = s.rnd := rfl
@[simp] theorem State.finish_turns : (s.finish).turns = s.turns := rfl
@[simp] theorem State.finish_reply : (s.finish).reply = s.reply := rfl
@[simp] theorem State.finish_width : (s.finish).width = s.width := rfl
@[simp] theorem State.finish_reg (j : Reg) : (s.finish).reg j = s.reg j := rfl

@[simp] theorem State.raise_cfg (e : Err) : (s.raise e).cfg = s.cfg := rfl
@[simp] theorem State.raise_x (e : Err) : (s.raise e).x = s.x := rfl
@[simp] theorem State.raise_flagEq (e : Err) : (s.raise e).flagEq = s.flagEq := rfl
@[simp] theorem State.raise_flagLt (e : Err) : (s.raise e).flagLt = s.flagLt := rfl
@[simp] theorem State.raise_flagOdd (e : Err) : (s.raise e).flagOdd = s.flagOdd := rfl
@[simp] theorem State.raise_flagPrime (e : Err) : (s.raise e).flagPrime = s.flagPrime := rfl
@[simp] theorem State.raise_flagNone (e : Err) : (s.raise e).flagNone = s.flagNone := rfl
@[simp] theorem State.raise_busy (e : Err) : (s.raise e).busy = false := rfl
@[simp] theorem State.raise_done (e : Err) : (s.raise e).done = true := rfl
@[simp] theorem State.raise_err (e : Err) : (s.raise e).err = true := rfl
@[simp] theorem State.raise_ovr (e : Err) : (s.raise e).ovr = s.ovr := rfl
@[simp] theorem State.raise_ie (e : Err) : (s.raise e).ie = s.ie := rfl
@[simp] theorem State.raise_cmd (e : Err) : (s.raise e).cmd = s.cmd := rfl
@[simp] theorem State.raise_errcode (e : Err) : (s.raise e).errcode = e.code := rfl
@[simp] theorem State.raise_rndcnt (e : Err) : (s.raise e).rndcnt = s.rndcnt := rfl
@[simp] theorem State.raise_mvalid (e : Err) : (s.raise e).mvalid = s.mvalid := rfl
@[simp] theorem State.raise_mn (e : Err) : (s.raise e).mn = s.mn := rfl
@[simp] theorem State.raise_mnp (e : Err) : (s.raise e).mnp = s.mnp := rfl
@[simp] theorem State.raise_mr2 (e : Err) : (s.raise e).mr2 = s.mr2 := rfl
@[simp] theorem State.raise_bvalid (e : Err) : (s.raise e).bvalid = s.bvalid := rfl
@[simp] theorem State.raise_bn (e : Err) : (s.raise e).bn = s.bn := rfl
@[simp] theorem State.raise_bk (e : Err) : (s.raise e).bk = s.bk := rfl
@[simp] theorem State.raise_bmu (e : Err) : (s.raise e).bmu = s.bmu := rfl
@[simp] theorem State.raise_drawn (e : Err) : (s.raise e).drawn = [] := rfl
@[simp] theorem State.raise_rnd (e : Err) : (s.raise e).rnd = s.rnd := rfl
@[simp] theorem State.raise_turns (e : Err) : (s.raise e).turns = s.turns := rfl
@[simp] theorem State.raise_reply (e : Err) : (s.raise e).reply = s.reply := rfl
@[simp] theorem State.raise_width (e : Err) : (s.raise e).width = s.width := rfl
@[simp] theorem State.raise_reg (e : Err) (j : Reg) : (s.raise e).reg j = s.reg j := rfl

@[simp] theorem State.accept_cfg (w : Word) : (s.accept w).cfg = s.cfg := rfl
@[simp] theorem State.accept_x (w : Word) : (s.accept w).x = s.x := rfl
@[simp] theorem State.accept_flagEq (w : Word) : (s.accept w).flagEq = s.flagEq := rfl
@[simp] theorem State.accept_flagLt (w : Word) : (s.accept w).flagLt = s.flagLt := rfl
@[simp] theorem State.accept_flagOdd (w : Word) : (s.accept w).flagOdd = s.flagOdd := rfl
@[simp] theorem State.accept_flagPrime (w : Word) : (s.accept w).flagPrime = s.flagPrime := rfl
@[simp] theorem State.accept_flagNone (w : Word) : (s.accept w).flagNone = s.flagNone := rfl
@[simp] theorem State.accept_busy (w : Word) : (s.accept w).busy = true := rfl
@[simp] theorem State.accept_done (w : Word) : (s.accept w).done = false := rfl
@[simp] theorem State.accept_err (w : Word) : (s.accept w).err = false := rfl
@[simp] theorem State.accept_ovr (w : Word) : (s.accept w).ovr = s.ovr := rfl
@[simp] theorem State.accept_ie (w : Word) : (s.accept w).ie = s.ie := rfl
@[simp] theorem State.accept_cmd (w : Word) : (s.accept w).cmd = w := rfl
@[simp] theorem State.accept_errcode (w : Word) : (s.accept w).errcode = 0x00 := rfl
@[simp] theorem State.accept_rndcnt (w : Word) : (s.accept w).rndcnt = s.rndcnt := rfl
@[simp] theorem State.accept_mvalid (w : Word) : (s.accept w).mvalid = s.mvalid := rfl
@[simp] theorem State.accept_mn (w : Word) : (s.accept w).mn = s.mn := rfl
@[simp] theorem State.accept_mnp (w : Word) : (s.accept w).mnp = s.mnp := rfl
@[simp] theorem State.accept_mr2 (w : Word) : (s.accept w).mr2 = s.mr2 := rfl
@[simp] theorem State.accept_bvalid (w : Word) : (s.accept w).bvalid = s.bvalid := rfl
@[simp] theorem State.accept_bn (w : Word) : (s.accept w).bn = s.bn := rfl
@[simp] theorem State.accept_bk (w : Word) : (s.accept w).bk = s.bk := rfl
@[simp] theorem State.accept_bmu (w : Word) : (s.accept w).bmu = s.bmu := rfl
@[simp] theorem State.accept_drawn (w : Word) : (s.accept w).drawn = [] := rfl
@[simp] theorem State.accept_rnd (w : Word) : (s.accept w).rnd = s.rnd := rfl
@[simp] theorem State.accept_turns (w : Word) : (s.accept w).turns = s.turns := rfl
@[simp] theorem State.accept_reply (w : Word) : (s.accept w).reply = s.reply := rfl
@[simp] theorem State.accept_width (w : Word) : (s.accept w).width = s.width := rfl
@[simp] theorem State.accept_reg (w : Word) (j : Reg) : (s.accept w).reg j = s.reg j := rfl

@[simp] theorem State.writeStatus_cfg (v : Word) : (s.writeStatus v).cfg = s.cfg := rfl
@[simp] theorem State.writeStatus_x (v : Word) : (s.writeStatus v).x = s.x := rfl
@[simp] theorem State.writeStatus_flagEq (v : Word) : (s.writeStatus v).flagEq = s.flagEq := rfl
@[simp] theorem State.writeStatus_flagLt (v : Word) : (s.writeStatus v).flagLt = s.flagLt := rfl
@[simp] theorem State.writeStatus_flagOdd (v : Word) : (s.writeStatus v).flagOdd = s.flagOdd := rfl
@[simp] theorem State.writeStatus_flagPrime (v : Word) : (s.writeStatus v).flagPrime = s.flagPrime := rfl
@[simp] theorem State.writeStatus_flagNone (v : Word) : (s.writeStatus v).flagNone = s.flagNone := rfl
@[simp] theorem State.writeStatus_busy (v : Word) : (s.writeStatus v).busy = s.busy := rfl
@[simp] theorem State.writeStatus_done (v : Word) : (s.writeStatus v).done = (s.done && !v.getLsbD 1) := rfl
@[simp] theorem State.writeStatus_err (v : Word) : (s.writeStatus v).err = s.err := rfl
@[simp] theorem State.writeStatus_ovr (v : Word) : (s.writeStatus v).ovr = (s.ovr && !v.getLsbD 3) := rfl
@[simp] theorem State.writeStatus_ie (v : Word) : (s.writeStatus v).ie = s.ie := rfl
@[simp] theorem State.writeStatus_cmd (v : Word) : (s.writeStatus v).cmd = s.cmd := rfl
@[simp] theorem State.writeStatus_errcode (v : Word) : (s.writeStatus v).errcode = s.errcode := rfl
@[simp] theorem State.writeStatus_rndcnt (v : Word) : (s.writeStatus v).rndcnt = s.rndcnt := rfl
@[simp] theorem State.writeStatus_mvalid (v : Word) : (s.writeStatus v).mvalid = s.mvalid := rfl
@[simp] theorem State.writeStatus_mn (v : Word) : (s.writeStatus v).mn = s.mn := rfl
@[simp] theorem State.writeStatus_mnp (v : Word) : (s.writeStatus v).mnp = s.mnp := rfl
@[simp] theorem State.writeStatus_mr2 (v : Word) : (s.writeStatus v).mr2 = s.mr2 := rfl
@[simp] theorem State.writeStatus_bvalid (v : Word) : (s.writeStatus v).bvalid = s.bvalid := rfl
@[simp] theorem State.writeStatus_bn (v : Word) : (s.writeStatus v).bn = s.bn := rfl
@[simp] theorem State.writeStatus_bk (v : Word) : (s.writeStatus v).bk = s.bk := rfl
@[simp] theorem State.writeStatus_bmu (v : Word) : (s.writeStatus v).bmu = s.bmu := rfl
@[simp] theorem State.writeStatus_drawn (v : Word) : (s.writeStatus v).drawn = s.drawn := rfl
@[simp] theorem State.writeStatus_rnd (v : Word) : (s.writeStatus v).rnd = s.rnd := rfl
@[simp] theorem State.writeStatus_turns (v : Word) : (s.writeStatus v).turns = s.turns := rfl
@[simp] theorem State.writeStatus_reply (v : Word) : (s.writeStatus v).reply = s.reply := rfl
@[simp] theorem State.writeStatus_width (v : Word) : (s.writeStatus v).width = s.width := rfl
@[simp] theorem State.writeStatus_reg (v : Word) (j : Reg) : (s.writeStatus v).reg j = s.reg j := rfl

@[simp] theorem State.resetOf_reg (c : Config) (i : Reg) : (State.resetOf c).reg i = 0 := by
  simp [State.reg, State.resetOf]
@[simp] theorem State.resetOf_cfg (c : Config) : (State.resetOf c).cfg = c := rfl
@[simp] theorem State.rst_cfg : s.rst.cfg = s.cfg := rfl
@[simp] theorem State.rst_rnd : s.rst.rnd = s.rnd := rfl
@[simp] theorem State.rst_turns : s.rst.turns = s.turns := rfl
@[simp] theorem State.rst_reply : s.rst.reply = s.reply := rfl
@[simp] theorem State.rst_busy : s.rst.busy = false := rfl
@[simp] theorem State.rst_drawn : s.rst.drawn = [] := rfl
@[simp] theorem State.rst_reg (i : Reg) : s.rst.reg i = 0 := State.resetOf_reg s.cfg i

end Sys2Proof.Machine
end

