-- ==== Sys2Proof/Laws/Ops.lean ====
section
/-! SUPPORT. What each shared operation can do, said once: the ends of a command, the draw step, the bus target, the numbers. -/

namespace Sys2Proof.Machine

/-! ## The ends of a command -/

theorem complete_eq (s : State) : complete s = .next s.finish := rfl

theorem raiseError_eq (e : Err) (s : State) : raiseError e s = .next (s.raise e) := rfl

theorem writeExact_fits (rd : Reg) (v : Nat) (s : State) (h : v < 2 ^ s.width) :
    writeExact rd v s = .next (s.setReg rd v).finish := by simp [writeExact, h, complete]

theorem writeExact_overflows (rd : Reg) (v : Nat) (s : State) (h : 2 ^ s.width ≤ v) :
    writeExact rd v s = .next (s.raise .overflow) := by simp [writeExact, Nat.not_lt.mpr h, raiseError]

theorem withModulus_zero (s : State) (k : State → Result) : withModulus 0 s k = .next (s.raise .zeroMod) := rfl

theorem withModulus_pos {n : Nat} (s : State) (k : State → Result) (h : n ≠ 0) : withModulus n s k = k s := by
  simp [withModulus, h]

theorem Err.code_ne_zero (e : Err) : e.code ≠ 0 := by cases e <;> decide

theorem Err.code_le (e : Err) : e.code.toNat ≤ 8 := by cases e <;> decide

/-! ## Drawing -/

theorem drawWord_hold {s : State} (h : s.rnd = []) : drawWord s = .fault .rndHold := by simp [drawWord, h]

theorem drawWord_draw {s : State} {w : Word} {ws : List Word} (h : s.rnd = w :: ws) :
    drawWord s = .next { s with rnd := ws, drawn := s.drawn ++ [w], rndcnt := s.rndcnt + 1 } := by
  simp [drawWord, h]

/-- A draw step answers a next state only by taking a word. -/
theorem drawWord_next {s t : State} (h : drawWord s = .next t) :
    ∃ w ws, s.rnd = w :: ws ∧ t = { s with rnd := ws, drawn := s.drawn ++ [w], rndcnt := s.rndcnt + 1 } := by
  match hr : s.rnd with
  | [] => simp [drawWord, hr] at h
  | w :: ws =>
    rw [drawWord_draw hr] at h
    exact ⟨w, ws, rfl, (Host.Outcome.next.inj h).symm⟩

theorem drawing_none {α : Type} (s : State) (k : α → Result) : drawing none s k = drawWord s := rfl

theorem drawing_some {α : Type} (a : α) (rest : List Word) (s : State) (k : α → Result) :
    drawing (some (a, rest)) s k = k a := rfl

theorem takeWords_length {n : Nat} {ws rest : List Word} {v : Nat} (h : takeWords n ws = some (v, rest)) :
    rest.length + n = ws.length := by
  induction n generalizing ws v with
  | zero => simp [takeWords] at h; simp [h.2]
  | succ n ih =>
    cases ws with
    | nil => simp [takeWords] at h
    | cons w ws =>
      simp only [takeWords, Option.map_eq_some_iff, Prod.mk.injEq, Prod.exists] at h
      obtain ⟨v', r', h', -, rfl⟩ := h
      have := ih h'
      simp only [List.length_cons]; omega

theorem takeWords_append {n : Nat} {ws rest more : List Word} {v : Nat} (h : takeWords n ws = some (v, rest)) :
    takeWords n (ws ++ more) = some (v, rest ++ more) := by
  induction n generalizing ws v with
  | zero => simp_all [takeWords]
  | succ n ih =>
    cases ws with
    | nil => simp [takeWords] at h
    | cons w ws =>
      simp only [takeWords, Option.map_eq_some_iff, Prod.mk.injEq, Prod.exists] at h
      obtain ⟨v', r', h', rfl, rfl⟩ := h
      simp [takeWords, ih h']

theorem drawBits_length {k : Nat} {ws rest : List Word} {v : Nat} (h : drawBits k ws = some (v, rest)) :
    rest.length + (k + 31) / 32 = ws.length := by
  simp only [drawBits, Option.map_eq_some_iff, Prod.mk.injEq, Prod.exists] at h
  obtain ⟨v', r', h', -, rfl⟩ := h
  exact takeWords_length h'

theorem drawBits_lt {k : Nat} {ws rest : List Word} {v : Nat} (h : drawBits k ws = some (v, rest)) : v < 2 ^ k := by
  simp only [drawBits, Option.map_eq_some_iff, Prod.mk.injEq, Prod.exists] at h
  obtain ⟨v', r', -, rfl, -⟩ := h
  exact Nat.mod_lt _ (Nat.two_pow_pos k)

theorem drawBits_append {k : Nat} {ws rest more : List Word} {v : Nat} (h : drawBits k ws = some (v, rest)) :
    drawBits k (ws ++ more) = some (v, rest ++ more) := by
  simp only [drawBits, Option.map_eq_some_iff, Prod.mk.injEq, Prod.exists] at h ⊢
  obtain ⟨v', r', h', rfl, rfl⟩ := h
  exact ⟨v', r' ++ more, takeWords_append h', rfl, rfl⟩

/-! ## Numbers and limbs -/

theorem lt_two_pow_bitlen (v : Nat) : v < 2 ^ bitlen v := by
  by_cases h : v = 0
  · simp [bitlen, h]
  · simpa [bitlen, h] using Nat.lt_log2_self (n := v)

theorem two_pow_le_of_bitlen {v : Nat} (h : v ≠ 0) : 2 ^ (bitlen v - 1) ≤ v := by
  simpa [bitlen, h] using Nat.log2_self_le h

theorem bitlen_le_of_lt {v k : Nat} (h : v < 2 ^ k) : bitlen v ≤ k := by
  by_cases h0 : v = 0
  · simp [bitlen, h0]
  · have := (Nat.log2_lt h0).mpr h
    simp only [bitlen, h0, if_false]; omega

theorem bitlen_pos {v : Nat} (h : v ≠ 0) : 1 ≤ bitlen v := by simp [bitlen, h]

theorem limb_toNat (v j : Nat) : (limb v j).toNat = v / 2 ^ (32 * j) % 2 ^ 32 := by simp [limb]

/-! ## The bus -/

/-- RNTE decodes the low 18 bits of a platform address (20_memory.md R55), which are the offset wherever BASE is. -/
theorem platformAddress_low18 {offset : Nat} (h : offset < 0x40000) :
    Config.platformAddress offset % 0x40000 = offset := by
  rw [Config.platformAddress, Config.base, Nat.mul_add_mod, Nat.mod_eq_of_lt h]

/-- Where an access goes on: a mapped location, aligned, 4 bytes, and no window while BUSY. -/
theorem State.target_ok {s : State} {addr n : Nat} {l : Loc} (h : s.target addr n = .ok l) :
    addr < 0x40000 ∧ n = 4 ∧ addr % 4 = 0 ∧ locate s.cfg.limbs addr = some l ∧ (l.isWindow = true → s.busy = false) := by
  unfold State.target at h
  split at h
  · simp at h
  · split at h
    · simp at h
    · split at h
      · simp at h
      · rename_i h1 h2 _ l' hl
        split at h
        · simp at h
        · rename_i h3
          simp only [Except.ok.injEq] at h
          subst h
          simp only [ne_eq, not_or, Decidable.not_not] at h2
          refine ⟨by omega, h2.1, h2.2, hl, fun hw => ?_⟩
          simpa [hw] using h3

theorem State.memRead_error {s : State} {addr n : Nat} {r : BusReply} (h : s.target addr n = .error r) :
    s.memRead addr n = r := by simp [State.memRead, h]

theorem State.memWrite_error {s : State} {addr n : Nat} {v : Word} {r : BusReply} (h : s.target addr n = .error r) :
    s.memWrite addr n v = (s, r) := by simp [State.memWrite, h]

theorem State.memRead_ok {s : State} {addr n : Nat} {l : Loc} (h : s.target addr n = .ok l) :
    s.memRead addr n = .readOk (s.load l) := by simp [State.memRead, h]

theorem State.memWrite_ok {s : State} {addr n : Nat} {v : Word} {l : Loc} (h : s.target addr n = .ok l) :
    s.memWrite addr n v = (s.store l v, .writeOk) := by simp [State.memWrite, h]

/-- What a write can do: nothing, accept or drop a command, clear DONE and OVR, set IE, write one operand register. -/
theorem State.store_cases (s : State) (l : Loc) (v : Word) :
    s.store l v = s ∨ (l = .cmd ∧ s.busy = false ∧ s.store l v = s.accept v) ∨
    (l = .cmd ∧ s.busy = true ∧ s.store l v = { s with ovr := true }) ∨
    (l = .status ∧ s.store l v = s.writeStatus v) ∨ (l = .ctrl ∧ s.store l v = { s with ie := v.getLsbD 0 }) ∨
    ∃ i j, l = .operand i j ∧ s.store l v = s.setReg i (setLimb (s.reg i) j v) := by
  cases l with
  | cmd =>
    by_cases hb : s.busy = true
    · exact .inr (.inr (.inl ⟨rfl, hb, by simp [State.store, State.writeCmd, hb]⟩))
    · have hb : s.busy = false := by simpa using hb
      exact .inr (.inl ⟨rfl, hb, by simp [State.store, State.writeCmd, hb]⟩)
  | status => exact .inr (.inr (.inr (.inl ⟨rfl, rfl⟩)))
  | ctrl => exact .inr (.inr (.inr (.inr (.inl ⟨rfl, rfl⟩))))
  | operand i j => exact .inr (.inr (.inr (.inr (.inr ⟨i, j, rfl, rfl⟩))))
  | errcode => exact .inl rfl
  | rndcnt => exact .inl rfl
  | config => exact .inl rfl
  | montnp => exact .inl rfl
  | bark => exact .inl rfl
  | mnLimb j => exact .inl rfl
  | mr2Limb j => exact .inl rfl
  | bnLimb j => exact .inl rfl
  | bmuLimb j => exact .inl rfl

/-- The agent that moves: the engine exactly when `engineTurn` says so. -/
theorem step_engine {s t : State} (h : s.engineTurn = some t) : step s = engineStep t := by
  simp [step, oneStep, h]

theorem step_env {s : State} (h : s.engineTurn = none) : step s = .next s.envTurn := by
  simp [step, oneStep, h]

end Sys2Proof.Machine
end

