-- ==== Sys2Proof/Laws/PerInstr.lean ====
section
/-! SUPPORT. One law for every command, made per command: its word meets its row of the opcode table, `w & mask = match`
(30_encoding.md R84). -/

namespace Sys2Proof.Laws

/-- A number below 2^k, placed at bit lo, is invisible to a mask whose k bits from lo on are 0. -/
theorem field_and_mask {v k : Nat} (hv : v < 2 ^ k) (lo : Nat) (m : Word)
    (hm : ∀ i < k, m.getLsbD (lo + i) = false) : BitVec.ofNat 32 v <<< lo &&& m = 0 := by
  apply BitVec.eq_of_getLsbD_eq
  intro i hi
  simp only [BitVec.getLsbD_and, BitVec.getLsbD_shiftLeft, BitVec.getLsbD_ofNat]
  by_cases hlo : i < lo
  · simp [hlo]
  · by_cases hk : i - lo < k
    · have := hm (i - lo) hk
      rw [show lo + (i - lo) = i by omega] at this
      simp [this]
    · have : v.testBit (i - lo) = false :=
        Nat.testBit_lt_two_pow (Nat.lt_of_lt_of_le hv (Nat.pow_le_pow_right (n := 2) (by decide) (by omega)))
      simp [this]

/-- A register field is invisible to a mask that is 0 on its four bits. -/
theorem reg_and_mask (r : Reg) (lo : Nat) (m : Word) (hm : ∀ i < 4, m.getLsbD (lo + i) = false) :
    BitVec.ofNat 32 r <<< lo &&& m = 0 := field_and_mask (k := 4) r.isLt lo m hm

/-- An immediate is invisible to a mask whose low 16 bits are 0. -/
theorem imm_and_mask {imm : Nat} (h : immOk imm = true) (m : Word) (hm : ∀ i < 16, m.getLsbD i = false) :
    BitVec.ofNat 32 imm &&& m = 0 := by
  have := field_and_mask (k := 16) (of_decide_eq_true h) 0 m (by simpa using hm)
  simpa using this

end Sys2Proof.Laws

namespace Sys2Proof.Laws.TableMatch

/-- The word of a well-formed command meets its row's mask and match (30_encoding.md R84). -/
def Statement (i : Instr) : Prop := i.wf = true → encode i &&& (tableRow i).1 = (tableRow i).2

theorem nop : Statement .nop := fun _ => by decide

theorem li (rd : Reg) (imm : Nat) : Statement (.li rd imm) := by
  intro h
  simp only [encode, tableRow, formatI, BitVec.and_or_distrib_right, reg_and_mask rd 20 0xFF0F0000 (by decide),
    imm_and_mask h 0xFF0F0000 (by decide)]
  decide

theorem mov (rd ra : Reg) : Statement (.mov rd ra) := by
  intro _
  simp only [encode, tableRow, formatR, BitVec.and_or_distrib_right, reg_and_mask rd 20 0xFF00FFFF (by decide),
    reg_and_mask ra 16 0xFF00FFFF (by decide)]
  decide

theorem add (rd ra rb : Reg) : Statement (.add rd ra rb) := by
  intro _
  simp only [encode, tableRow, formatR, BitVec.and_or_distrib_right, reg_and_mask rd 20 0xFF000FFF (by decide),
    reg_and_mask ra 16 0xFF000FFF (by decide), reg_and_mask rb 12 0xFF000FFF (by decide)]
  decide

theorem sub (rd ra rb : Reg) : Statement (.sub rd ra rb) := by
  intro _
  simp only [encode, tableRow, formatR, BitVec.and_or_distrib_right, reg_and_mask rd 20 0xFF000FFF (by decide),
    reg_and_mask ra 16 0xFF000FFF (by decide), reg_and_mask rb 12 0xFF000FFF (by decide)]
  decide

theorem mul (rd ra rb : Reg) : Statement (.mul rd ra rb) := by
  intro _
  simp only [encode, tableRow, formatR, BitVec.and_or_distrib_right, reg_and_mask rd 20 0xFF000FFF (by decide),
    reg_and_mask ra 16 0xFF000FFF (by decide), reg_and_mask rb 12 0xFF000FFF (by decide)]
  decide

theorem mod (rd ra rb : Reg) : Statement (.mod rd ra rb) := by
  intro _
  simp only [encode, tableRow, formatR, BitVec.and_or_distrib_right, reg_and_mask rd 20 0xFF000FFF (by decide),
    reg_and_mask ra 16 0xFF000FFF (by decide), reg_and_mask rb 12 0xFF000FFF (by decide)]
  decide

theorem shl (rd ra : Reg) (imm : Nat) : Statement (.shl rd ra imm) := by
  intro h
  simp only [encode, tableRow, formatI, BitVec.and_or_distrib_right, reg_and_mask rd 20 0xFF000000 (by decide),
    reg_and_mask ra 16 0xFF000000 (by decide), imm_and_mask h 0xFF000000 (by decide)]
  decide

theorem shr (rd ra : Reg) (imm : Nat) : Statement (.shr rd ra imm) := by
  intro h
  simp only [encode, tableRow, formatI, BitVec.and_or_distrib_right, reg_and_mask rd 20 0xFF000000 (by decide),
    reg_and_mask ra 16 0xFF000000 (by decide), imm_and_mask h 0xFF000000 (by decide)]
  decide

theorem parity (ra : Reg) : Statement (.parity ra) := by
  intro _
  simp only [encode, tableRow, formatR, BitVec.and_or_distrib_right, reg_and_mask ra 16 0xFFF0FFFF (by decide)]
  decide

theorem cmp (ra rb : Reg) : Statement (.cmp ra rb) := by
  intro _
  simp only [encode, tableRow, formatR, BitVec.and_or_distrib_right, reg_and_mask ra 16 0xFFF00FFF (by decide),
    reg_and_mask rb 12 0xFFF00FFF (by decide)]
  decide

theorem gcd (rd ra rb : Reg) : Statement (.gcd rd ra rb) := by
  intro _
  simp only [encode, tableRow, formatR, BitVec.and_or_distrib_right, reg_and_mask rd 20 0xFF000FFF (by decide),
    reg_and_mask ra 16 0xFF000FFF (by decide), reg_and_mask rb 12 0xFF000FFF (by decide)]
  decide

theorem modinv (rd ra rb : Reg) : Statement (.modinv rd ra rb) := by
  intro _
  simp only [encode, tableRow, formatR, BitVec.and_or_distrib_right, reg_and_mask rd 20 0xFF000FFF (by decide),
    reg_and_mask ra 16 0xFF000FFF (by decide), reg_and_mask rb 12 0xFF000FFF (by decide)]
  decide

theorem mulmod (rd ra rb rc : Reg) : Statement (.mulmod rd ra rb rc) := by
  intro _
  simp only [encode, tableRow, formatR, BitVec.and_or_distrib_right, reg_and_mask rd 20 0xFF0000FF (by decide),
    reg_and_mask ra 16 0xFF0000FF (by decide), reg_and_mask rb 12 0xFF0000FF (by decide),
    reg_and_mask rc 8 0xFF0000FF (by decide)]
  decide

theorem powmod (rd ra rb rc : Reg) : Statement (.powmod rd ra rb rc) := by
  intro _
  simp only [encode, tableRow, formatR, BitVec.and_or_distrib_right, reg_and_mask rd 20 0xFF0000FF (by decide),
    reg_and_mask ra 16 0xFF0000FF (by decide), reg_and_mask rb 12 0xFF0000FF (by decide),
    reg_and_mask rc 8 0xFF0000FF (by decide)]
  decide

theorem montset (ra : Reg) : Statement (.montset ra) := by
  intro _
  simp only [encode, tableRow, formatR, BitVec.and_or_distrib_right, reg_and_mask ra 16 0xFFF0FFFF (by decide)]
  decide

theorem montmul (rd ra rb : Reg) : Statement (.montmul rd ra rb) := by
  intro _
  simp only [encode, tableRow, formatR, BitVec.and_or_distrib_right, reg_and_mask rd 20 0xFF000FFF (by decide),
    reg_and_mask ra 16 0xFF000FFF (by decide), reg_and_mask rb 12 0xFF000FFF (by decide)]
  decide

theorem tomont (rd ra : Reg) : Statement (.tomont rd ra) := by
  intro _
  simp only [encode, tableRow, formatR, BitVec.and_or_distrib_right, reg_and_mask rd 20 0xFF00FFFF (by decide),
    reg_and_mask ra 16 0xFF00FFFF (by decide)]
  decide

theorem frommont (rd ra : Reg) : Statement (.frommont rd ra) := by
  intro _
  simp only [encode, tableRow, formatR, BitVec.and_or_distrib_right, reg_and_mask rd 20 0xFF00FFFF (by decide),
    reg_and_mask ra 16 0xFF00FFFF (by decide)]
  decide

theorem barset (ra : Reg) : Statement (.barset ra) := by
  intro _
  simp only [encode, tableRow, formatR, BitVec.and_or_distrib_right, reg_and_mask ra 16 0xFFF0FFFF (by decide)]
  decide

theorem barred (rd ra : Reg) : Statement (.barred rd ra) := by
  intro _
  simp only [encode, tableRow, formatR, BitVec.and_or_distrib_right, reg_and_mask rd 20 0xFF00FFFF (by decide),
    reg_and_mask ra 16 0xFF00FFFF (by decide)]
  decide

theorem barmul (rd ra rb : Reg) : Statement (.barmul rd ra rb) := by
  intro _
  simp only [encode, tableRow, formatR, BitVec.and_or_distrib_right, reg_and_mask rd 20 0xFF000FFF (by decide),
    reg_and_mask ra 16 0xFF000FFF (by decide), reg_and_mask rb 12 0xFF000FFF (by decide)]
  decide

theorem isprime (ra : Reg) (imm : Nat) : Statement (.isprime ra imm) := by
  intro h
  simp only [encode, tableRow, formatI, BitVec.and_or_distrib_right, reg_and_mask ra 16 0xFFF00000 (by decide),
    imm_and_mask h 0xFFF00000 (by decide)]
  decide

theorem makeprime (rd ra : Reg) (imm : Nat) : Statement (.makeprime rd ra imm) := by
  intro h
  simp only [encode, tableRow, formatI, BitVec.and_or_distrib_right, reg_and_mask rd 20 0xFF000000 (by decide),
    reg_and_mask ra 16 0xFF000000 (by decide), imm_and_mask h 0xFF000000 (by decide)]
  decide

theorem rand (rd ra : Reg) : Statement (.rand rd ra) := by
  intro _
  simp only [encode, tableRow, formatR, BitVec.and_or_distrib_right, reg_and_mask rd 20 0xFF00FFFF (by decide),
    reg_and_mask ra 16 0xFF00FFFF (by decide)]
  decide

end Sys2Proof.Laws.TableMatch
end

