-- ==== Sys2Proof/Tests/Slice0.lean ====
section
/-! SUPPORT. Small tests, each from the spec's own numbers (the rule's example or a row of 95_test_vectors.md, named in its
comment), and for every statement with hypotheses a witness that they can be met. -/

namespace Sys2Proof.Tests

open Sys2Proof.Machine

/-! ## Helpers -/

/-- A W = 64 machine with these operand registers and a command in flight. -/
def inFlight (regs : List (Reg × Nat)) : State :=
  regs.foldl (fun s p => s.setReg p.1 p.2) { State.resetOf ⟨2⟩ with busy := true }

/-- The next state, if the step answers one. -/
def nextOf : Result → Option State
  | .next t => some t
  | .fault _ => none
  | .refused _ => none

/-- Register i, STATUS and ERRCODE after the step. -/
def after (r : Result) (i : Reg) : Option (Nat × Word × BitVec 8) :=
  (nextOf r).map fun t => (t.reg i, t.statusWord, t.errcode)

/-- The fault of the step, if it is one. -/
def faultOf : Result → Option Fault
  | .fault f => some f
  | .next _ => none
  | .refused _ => none

/-- The Montgomery context of N = 3233 at W = 64 (V67). -/
def withMont3233 (s : State) : State := { s with mvalid := true, mn := 3233, mnp := 0x669F289F, mr2 := 1232 }

/-- The Barrett context of N = 10000 (V54). -/
def withBar10000 (s : State) : State := { s with bvalid := true, bn := 10000, bk := 14, bmu := 26843 }

/-! ## Well-formedness: an ill-formed term for each check -/

theorem test_wf_li_refuses : (Instr.li 3 65536).wf = false ∧ (Instr.li 3 65535).wf = true := by decide
theorem test_wf_shl_refuses : (Instr.shl 3 4 65536).wf = false ∧ (Instr.shl 3 4 65535).wf = true := by decide
theorem test_wf_shr_refuses : (Instr.shr 3 4 65536).wf = false ∧ (Instr.shr 3 4 65535).wf = true := by decide
theorem test_wf_isprime_refuses : (Instr.isprime 3 65536).wf = false ∧ (Instr.isprime 3 65535).wf = true := by decide
theorem test_wf_makeprime_refuses :
    (Instr.makeprime 3 4 65536).wf = false ∧ (Instr.makeprime 3 4 65535).wf = true := by decide

/-! ## Decoding: a word of every command, written out from R81, R82, R84 -/

/-- 40_data_movement.md (R85, V4): op 00; op 01 rd F imm FFFF; op 02 rd 1 ra 2. -/
theorem test_decode_movement :
    (decode 0x00000000).toOption = some .nop ∧ (decode 0x01F0FFFF).toOption = some (.li 15 65535) ∧
    (decode 0x02120000).toOption = some (.mov 1 2) := by decide

/-- 41_integer_arithmetic.md (V10, V14, V17, V21). -/
theorem test_decode_sum_product :
    (decode 0x10312000).toOption = some (.add 3 1 2) ∧ (decode 0x11514000).toOption = some (.sub 5 1 4) ∧
    (decode 0x12312000).toOption = some (.mul 3 1 2) ∧ (decode 0x13312000).toOption = some (.mod 3 1 2) := by decide

/-- 41_integer_arithmetic.md (V27, V31, V33, V35). -/
theorem test_decode_shift_flags :
    (decode 0x1454FFFF).toOption = some (.shl 5 4 65535) ∧ (decode 0x15320040).toOption = some (.shr 3 2 64) ∧
    (decode 0x16090000).toOption = some (.parity 9) ∧ (decode 0x170DB000).toOption = some (.cmp 13 11) := by decide

/-- 42_gcd_modinv.md, 45_modexp.md (V39, V45, R85, program P3). -/
theorem test_decode_euclid_pipeline :
    (decode 0x20987000).toOption = some (.gcd 9 8 7) ∧ (decode 0x21A87000).toOption = some (.modinv 10 8 7) ∧
    (decode 0x22012300).toOption = some (.mulmod 0 1 2 3) ∧ (decode 0x23CB8300).toOption = some (.powmod 12 11 8 3) := by
  decide

/-- 44_montgomery.md (V67, V73, V78, V76). -/
theorem test_decode_montgomery :
    (decode 0x30050000).toOption = some (.montset 5) ∧ (decode 0x31312000).toOption = some (.montmul 3 1 2) ∧
    (decode 0x32310000).toOption = some (.tomont 3 1) ∧ (decode 0x33330000).toOption = some (.frommont 3 3) := by decide

/-- 43_barrett.md (V54, V55, V58). -/
theorem test_decode_barrett :
    (decode 0x38050000).toOption = some (.barset 5) ∧ (decode 0x39210000).toOption = some (.barred 2 1) ∧
    (decode 0x3A312000).toOption = some (.barmul 3 1 2) := by decide

/-- 46_miller_rabin.md (R85). -/
theorem test_decode_miller_rabin :
    (decode 0x40010032).toOption = some (.isprime 1 50) ∧ (decode 0x41210032).toOption = some (.makeprime 2 1 50) ∧
    (decode 0x42800000).toOption = some (.rand 8 0) := by decide

/-- R86: the raw words of V7, V8, V9, V38, V102, V122 and an unassigned opcode. -/
theorem test_decode_rejects_by_name :
    decode 0x00000001 = .error .unusedFieldNotZero ∧ decode 0x01310000 = .error .unusedFieldNotZero ∧
    decode 0x02120100 = .error .unusedFieldNotZero ∧ decode 0x17102000 = .error .unusedFieldNotZero ∧
    decode 0x23012301 = .error .unusedFieldNotZero ∧ decode 0x40110032 = .error .unusedFieldNotZero ∧
    decode 0x03000000 = .error .unassignedOpcode := ⟨rfl, rfl, rfl, rfl, rfl, rfl, rfl⟩

/-- The host's two questions, on the word of R85 for ADD and on the shortest row. -/
theorem test_table_word : decodeTableWord 32 0x10312000 = some (.add 3 1 2) ∧ decodeTableWord 32 0 = some .nop ∧
    decodeTableWord 40 0 = none := by decide

/-- R89, R90: assembler lines of R85 and a pseudo-instruction. -/
theorem test_asm : (Instr.modinv 10 8 7).asm = "MODINV x10, x8, x7" ∧ (Instr.isprime 1 50).asm = "ISPRIME x1, 50" ∧
    Instr.clr 5 = .li 5 0 ∧ encode (Instr.sqrmod 0 1 3) = 0x22011300 := by decide

/-! ## Commands -/

/-- R100, V1. -/
theorem test_nop : after (exec .nop (inFlight [(7, 42)])) 7 = some (42, 0x00000002, 0x00) := by decide
/-- V3. -/
theorem test_li_clears_upper_limbs :
    after (exec (.li 5 0) (inFlight [(5, 0xFFFFFFFFFFFFFFFF)])) 5 = some (0, 0x00000002, 0x00) := by decide
/-- V5. -/
theorem test_mov : after (exec (.mov 1 2) (inFlight [(2, 0x123456789ABCDEF0)])) 1
    = some (0x123456789ABCDEF0, 0x00000002, 0x00) := by decide
/-- V11. -/
theorem test_add_largest_fits : after (exec (.add 3 1 2) (inFlight [(1, 0xFFFFFFFFFFFFFFFF)])) 3
    = some (0xFFFFFFFFFFFFFFFF, 0x00000002, 0x00) := by decide
/-- V12. -/
theorem test_add_overflow : after (exec (.add 3 1 2) (inFlight [(1, 0xFFFFFFFFFFFFFFFF), (2, 1), (3, 99)])) 3
    = some (99, 0x00000006, 0x06) := by decide
/-- V15. -/
theorem test_sub_self : after (exec (.sub 1 1 1) (inFlight [(1, 61)])) 1 = some (0, 0x00000002, 0x00) := by decide
/-- V16. -/
theorem test_sub_negative : after (exec (.sub 3 1 2) (inFlight [(2, 1), (3, 99)])) 3
    = some (99, 0x00000006, 0x07) := by decide
/-- V18. -/
theorem test_mul_largest_fits : after (exec (.mul 3 1 2) (inFlight [(1, 0xFFFFFFFF), (2, 0x100000001)])) 3
    = some (0xFFFFFFFFFFFFFFFF, 0x00000002, 0x00) := by decide
/-- V19. -/
theorem test_mul_overflow : after (exec (.mul 3 1 2) (inFlight [(1, 0x100000000), (2, 0x100000000), (3, 99)])) 3
    = some (99, 0x00000006, 0x06) := by decide
/-- V21. -/
theorem test_mod : after (exec (.mod 3 1 2) (inFlight [(1, 4782969), (2, 10000)])) 3
    = some (2969, 0x00000002, 0x00) := by decide
/-- V24. -/
theorem test_mod_zero : after (exec (.mod 3 1 2) (inFlight [(1, 7), (3, 99)])) 3
    = some (99, 0x00000006, 0x02) := by decide
/-- V25, V26. -/
theorem test_shl_boundary :
    after (exec (.shl 4 4 63) (inFlight [(4, 1)])) 4 = some (0x8000000000000000, 0x00000002, 0x00) ∧
    after (exec (.shl 4 4 64) (inFlight [(4, 1)])) 4 = some (1, 0x00000006, 0x06) := by decide
/-- V27: zero shifts to zero by any count. -/
theorem test_shl_zero : after (exec (.shl 5 4 65535) (inFlight [(5, 9)])) 5 = some (0, 0x00000002, 0x00) := by
  decide +kernel
/-- V30, V31. -/
theorem test_shr_boundary :
    after (exec (.shr 3 2 63) (inFlight [(2, 0xFFFFFFFFFFFFFFFF)])) 3 = some (1, 0x00000002, 0x00) ∧
    after (exec (.shr 3 2 64) (inFlight [(2, 0xFFFFFFFFFFFFFFFF), (3, 9)])) 3 = some (0, 0x00000002, 0x00) := by decide
/-- V33. -/
theorem test_parity_odd : after (exec (.parity 9) (inFlight [(9, 2187)])) 9 = some (2187, 0x00000402, 0x00) := by decide
/-- V35. -/
theorem test_cmp_equal : after (exec (.cmp 13 11) (inFlight [(13, 65), (11, 65)])) 13
    = some (65, 0x00000102, 0x00) := by decide
/-- V36. -/
theorem test_cmp_less : after (exec (.cmp 1 2) (inFlight [(1, 3), (2, 5)])) 1 = some (3, 0x00000202, 0x00) := by decide
/-- V44. -/
theorem test_gcd_consecutive :
    after (exec (.gcd 3 1 2) (inFlight [(1, 0xFFFFFFFFFFFFFFFF), (2, 0xFFFFFFFFFFFFFFFE)])) 3
      = some (1, 0x00000002, 0x00) := by decide
/-- V41. -/
theorem test_gcd_zero_zero : after (exec (.gcd 3 1 2) (inFlight [(3, 9)])) 3 = some (0, 0x00000002, 0x00) := by decide
/-- V45. -/
theorem test_modinv : after (exec (.modinv 10 8 7) (inFlight [(8, 17), (7, 3120)])) 10
    = some (2753, 0x00000002, 0x00) := by decide
/-- V46: no inverse, NONE = 1, the destination kept. -/
theorem test_modinv_none : after (exec (.modinv 3 1 2) (inFlight [(1, 6), (2, 9), (3, 99)])) 3
    = some (99, 0x00001002, 0x00) := by decide
/-- V49 (90_conflicts.md C1). -/
theorem test_modinv_one : after (exec (.modinv 3 1 2) (inFlight [(1, 1), (2, 1), (3, 99)])) 3
    = some (0, 0x00000002, 0x00) := by decide
/-- V86: operands above the modulus. -/
theorem test_mulmod :
    after (exec (.mulmod 0 1 2 3)
      (inFlight [(1, 0xFFFFFFFFFFFFFFFF), (2, 0xFFFFFFFFFFFFFFFF), (3, 0xFFFFFFFFFFFFFFC5)])) 0
      = some (3364, 0x00000002, 0x00) := by decide
/-- V92 (DECRYPT). -/
theorem test_powmod : after (exec (.powmod 0 1 2 3) (inFlight [(1, 2790), (2, 2753), (3, 3233)])) 0
    = some (65, 0x00000002, 0x00) := by decide +kernel
/-- V94: exponent 0 modulo 1. -/
theorem test_powmod_mod_one : after (exec (.powmod 0 1 2 3) (inFlight [(1, 5), (3, 1), (0, 9)])) 0
    = some (0, 0x00000002, 0x00) := by decide
/-- V67. -/
theorem test_montset :
    (nextOf (exec (.montset 5) (inFlight [(5, 3233)]))).map (fun t => (t.mvalid, t.mn, t.mnp, t.mr2))
      = some (true, 3233, 0x669F289F, 1232) := by decide +kernel
/-- V69, V68: zero before even. -/
theorem test_montset_errors :
    after (exec (.montset 5) (inFlight [])) 5 = some (0, 0x00000006, 0x02) ∧
    after (exec (.montset 5) (inFlight [(5, 10000)])) 5 = some (10000, 0x00000006, 0x03) := by decide
/-- V73. -/
theorem test_montmul : after (exec (.montmul 3 1 2) (withMont3233 (inFlight [(1, 2565), (2, 2163)]))) 3
    = some (1576, 0x00010002, 0x00) := by decide +kernel
/-- V79, V77. -/
theorem test_montmul_errors :
    after (exec (.montmul 3 1 2) (inFlight [(1, 5), (2, 6), (3, 9)])) 3 = some (9, 0x00000006, 0x04) ∧
    after (exec (.montmul 3 1 2) (withMont3233 (inFlight [(1, 3233), (2, 1), (3, 9)]))) 3
      = some (9, 0x00010006, 0x05) := by decide
/-- V70. -/
theorem test_tomont : after (exec (.tomont 1 1) (withMont3233 (inFlight [(1, 65)]))) 1
    = some (2565, 0x00010002, 0x00) := by decide +kernel
/-- V76. -/
theorem test_frommont : after (exec (.frommont 3 3) (withMont3233 (inFlight [(3, 1576)]))) 3
    = some (1105, 0x00010002, 0x00) := by decide +kernel
/-- V54, V64. -/
theorem test_barset :
    (nextOf (exec (.barset 5) (inFlight [(5, 10000)]))).map (fun t => (t.bvalid, t.bn, t.bk, t.bmu))
      = some (true, 10000, 14, 26843) ∧
    (nextOf (exec (.barset 5) (inFlight [(5, 0xFFFFFFFFFFFFFFFF)]))).map (fun t => (t.bk, t.bmu))
      = some (64, 2 ^ 64 + 1) := by decide
/-- V56, V57: the largest legal input and the one above it. -/
theorem test_barred_boundary :
    after (exec (.barred 2 1) (withBar10000 (inFlight [(1, 0xFFFFFFF)]))) 2 = some (5455, 0x00020002, 0x00) ∧
    after (exec (.barred 2 1) (withBar10000 (inFlight [(1, 0x10000000), (2, 9)]))) 2 = some (9, 0x00020006, 0x05) := by
  decide
/-- V60. -/
theorem test_barred_noctx : after (exec (.barred 2 1) (inFlight [(1, 5), (2, 9)])) 2
    = some (9, 0x00000006, 0x04) := by decide
/-- V58, V59. -/
theorem test_barmul_boundary :
    after (exec (.barmul 3 1 2) (withBar10000 (inFlight [(1, 9999), (2, 9999)]))) 3 = some (1, 0x00020002, 0x00) ∧
    after (exec (.barmul 3 1 2) (withBar10000 (inFlight [(1, 10000), (2, 1), (3, 9)]))) 3
      = some (9, 0x00020006, 0x05) := by decide
/-- V113: the Carmichael number 41041, one word drawn, rejected. -/
theorem test_isprime_carmichael :
    after (exec (.isprime 1 3) { inFlight [(1, 41041)] with drawn := [0x12345678] }) 1
      = some (41041, 0x00000002, 0x00) := by decide +kernel
/-- V116: the prime 104717, four words drawn. -/
theorem test_isprime_prime :
    after (exec (.isprime 1 3)
      { inFlight [(1, 104717)] with drawn := [0x12345678, 0xFFFFFFFF, 0x0000A04D, 0x00000000] }) 1
      = some (104717, 0x00000802, 0x00) := by decide +kernel
/-- V125: bits = W, two words. -/
theorem test_rand_full_width :
    after (exec (.rand 8 0) { inFlight [(0, 64)] with drawn := [0x9E3779B9, 0x7F4A7C15] }) 8
      = some (0xFF4A7C159E3779B9, 0x00000002, 0x00) := by decide
/-- V129, V128: PARAM on both sides. -/
theorem test_rand_param :
    after (exec (.rand 8 0) (inFlight [(0, 65), (8, 9)])) 8 = some (9, 0x00000006, 0x08) ∧
    after (exec (.rand 8 0) (inFlight [(8, 9)])) 8 = some (9, 0x00000006, 0x08) := by decide
/-- V130: the trace of R186, eleven words. -/
theorem test_makeprime :
    after (exec (.makeprime 2 1 5) { inFlight [(1, 8)] with
      drawn := [0x54, 0x2B, 0x11, 0x5, 0x0, 0x3, 0xA, 0xF0, 0x7F, 0x1, 0x20] }) 2
      = some (131, 0x00000802, 0x00) := by decide +kernel
/-- V133, V134: PARAM on both sides. -/
theorem test_makeprime_param :
    after (exec (.makeprime 2 1 50) (inFlight [(1, 1), (2, 9)])) 2 = some (9, 0x00000006, 0x08) ∧
    after (exec (.makeprime 2 1 50) (inFlight [(1, 65), (2, 9)])) 2 = some (9, 0x00000006, 0x08) := by decide

/-- R169, R157: the realisations on the numbers of V91 and V74. -/
theorem test_realisations : powerModMont 64 65 17 3233 = 2790 ∧ powerModBar 3 7 10000 = 2187 ∧
    montMulSerial 2 65 17 3233 0x669F289F = 904 := by decide +kernel

/-! ## Steps and the host interface -/

/-- H13: acceptance by a host write. -/
theorem test_accept :
    (nextOf (step { State.reset with turns := [.host (.write 0x000 4 0x40010002)] })).map
      (fun t => (t.cmd, t.statusWord, t.reply)) = some (0x40010002, 0x00000001, some .writeOk) := by decide

/-- H16: a CMD write while BUSY is dropped, OVR = 1. -/
theorem test_dropped :
    (nextOf (step { inFlight [] with cmd := 0x40010002, turns := [.host (.write 0x000 4 0x01200007)] })).map
      (fun t => (t.cmd, t.statusWord, t.reply)) = some (0x40010002, 0x00000009, some .writeOk) := by decide

/-- H5, H6: limb 1 is the high half. -/
theorem test_limb_write :
    ((inFlight [(1, 0xFFFFFFC5)]).finish.memWrite 0x11004 4 0xFFFFFFFF).1.reg 1 = 0xFFFFFFFFFFFFFFC5 ∧
    (inFlight [(1, 0xFFFFFFFFFFFFFFC5)]).finish.memRead 0x11000 4 = .readOk 0xFFFFFFC5 := by decide

/-- H7 to H10, H15. -/
theorem test_bus_errors :
    State.reset.memRead 0x11008 4 = .busError ∧ State.reset.memRead 0x11002 4 = .busError ∧
    State.reset.memRead 0x11000 2 = .busError ∧ State.reset.memRead 0x11000 8 = .busError ∧
    State.reset.memRead 0x00020 4 = .busError ∧ State.reset.memRead 0x0FFFC 4 = .busError ∧
    State.reset.memRead 0x24000 4 = .busError ∧ State.reset.memRead 0x3FFFC 4 = .busError ∧
    (inFlight []).memRead 0x20000 4 = .busError := by decide

/-- H2, R28: CONFIG for W = 64 and W = 4096. -/
theorem test_config : State.reset.memRead 0x00014 4 = .readOk 0x00100002 ∧
    (State.resetOf ⟨128⟩).memRead 0x00014 4 = .readOk 0x00100080 := by decide

/-- H27: the BMU window has L + 1 limbs. -/
theorem test_bmu_window :
    ({ State.reset with bmu := 2 ^ 64 + 59 }).memRead 0x23000 4 = .readOk 0x0000003B ∧
    ({ State.reset with bmu := 2 ^ 64 + 59 }).memRead 0x23008 4 = .readOk 0x00000001 ∧
    ({ State.reset with bmu := 2 ^ 64 + 59 }).memRead 0x2300C 4 = .busError := by decide

/-- H18 to H21: irq, and W1C of DONE and OVR. -/
theorem test_w1c :
    ({ State.reset with done := true, ovr := true, flagPrime := true, ie := true }).irq = true ∧
    (({ State.reset with done := true, ovr := true, flagPrime := true }).memWrite 4 4 0x00000002).1.statusWord
      = 0x00000808 ∧
    (({ State.reset with ovr := true, flagPrime := true }).memWrite 4 4 0xFFFFFFF5).1.statusWord = 0x00000808 ∧
    (({ State.reset with ovr := true, flagPrime := true }).memWrite 4 4 0x00000008).1.statusWord = 0x00000800 := by decide

/-- H17: a draw step takes one word and counts it; H13: without a word the engine holds. -/
theorem test_draw_and_hold :
    (nextOf (exec (.isprime 1 2) { inFlight [(1, 0xFFFFFFFFFFFFFFC5)] with rnd := [0x12345678, 0xFFFFFFFF] })).map
      (fun t => (t.rndcnt, t.drawn, t.rnd, t.busy)) = some (1, [0x12345678], [0xFFFFFFFF], true) ∧
    faultOf (exec (.isprime 1 2) (inFlight [(1, 0xFFFFFFFFFFFFFFC5)])) = some .rndHold := by decide

/-- H30: reset while RAND is in flight. -/
theorem test_reset :
    (nextOf (step { inFlight [(0, 40)] with cmd := 0x42300000, rndcnt := 4, ie := true, turns := [.rst] })).map
      (fun t => (t.reg 0, t.statusWord, t.cmd, t.rndcnt, t.ie)) = some (0, 0x00000000, 0x00000000, 0, false) := by decide

/-- V7: an illegal word ends in ILLEGAL. -/
theorem test_illegal :
    after (step { inFlight [(3, 9)] with cmd := 0x00000001 }) 3 = some (9, 0x00000006, 0x01) := by decide

/-- A placed word runs at the very next step after reset (V2). -/
theorem test_placed_word : after (step (State.reset.withFetchWord 32 0x01302710)) 3
    = some (10000, 0x00000002, 0x00) := by decide

/-- R89: the moves of a program (P1, line 1). -/
theorem test_program_turns : programTurns [0x01100003] = [.waitIdle, .host (.write 0 4 0x01100003)] := by decide

/-! ## Witnesses: the hypotheses of each statement can be met, each clause at a boundary -/

theorem witness_DecodeOfEncodeIsTheCommand : (Instr.li 15 65535).wf = true ∧ (Instr.shl 0 15 0).wf = true := by decide
theorem witness_EachCommandHasOneWord : decode 0x01F0FFFF = .ok (.li 15 65535) := rfl
theorem witness_DecodeFollowsTheOpcodeTable_matches :
    (0x1454FFFF : Word) &&& 0xFF000000 = 0x14000000 ∧ (0x00000000 : Word) &&& 0xFFFFFFFF = 0x00000000 := by decide
theorem witness_DecodeFollowsTheOpcodeTable_rejects :
    ∀ r ∈ ([(0x00000000, 0xFFFFFFFF), (0x01000000, 0xFF0F0000), (0x02000000, 0xFF00FFFF), (0x10000000, 0xFF000FFF),
        (0x11000000, 0xFF000FFF), (0x12000000, 0xFF000FFF), (0x13000000, 0xFF000FFF), (0x14000000, 0xFF000000),
        (0x15000000, 0xFF000000), (0x16000000, 0xFFF0FFFF), (0x17000000, 0xFFF00FFF), (0x20000000, 0xFF000FFF),
        (0x21000000, 0xFF000FFF), (0x22000000, 0xFF0000FF), (0x23000000, 0xFF0000FF), (0x30000000, 0xFFF0FFFF),
        (0x31000000, 0xFF000FFF), (0x32000000, 0xFF00FFFF), (0x33000000, 0xFF00FFFF), (0x38000000, 0xFFF0FFFF),
        (0x39000000, 0xFF00FFFF), (0x3A000000, 0xFF000FFF), (0x40000000, 0xFFF00000), (0x41000000, 0xFF000000),
        (0x42000000, 0xFF00FFFF)] : List (Word × Word)), (0x03000000 : Word) &&& r.2 ≠ r.1 := by
  simp

theorem witness_StepRunsTheDecodedCommand_default :
    (inFlight []).busy = true ∧ decode (inFlight []).cmd = .ok .nop ∧ (inFlight []).turns = [] := ⟨rfl, rfl, rfl⟩
theorem witness_StepRunsTheDecodedCommand_engine :
    ∃ s : State, s.busy = true ∧ decode s.cmd = .ok .nop ∧ s.turns = .engine :: [.rst] :=
  ⟨{ inFlight [] with turns := [.engine, .rst] }, rfl, rfl, rfl⟩
theorem witness_StepRunsTheDecodedCommand_wait :
    ∃ s : State, s.busy = true ∧ decode s.cmd = .ok .nop ∧ s.turns = .waitIdle :: [] :=
  ⟨{ inFlight [] with turns := [.waitIdle] }, rfl, rfl, rfl⟩
theorem witness_IllegalWordEndsInIllegal :
    decode 0x00000001 = .error .unusedFieldNotZero ∧ decode 0xFF000000 = .error .unassignedOpcode ∧
    State.reset.busy = false ∧
    ∃ s : State, s.busy = true ∧ s.cmd = 0x00000001 ∧ s.turns = .engine :: [] :=
  ⟨rfl, rfl, rfl, { inFlight [] with cmd := 0x00000001, turns := [.engine] }, rfl, rfl, rfl⟩
theorem witness_OtherAgentsMoveAndIdleEngineDoesNot :
    (∃ s : State, s.turns = .host (.read 4 4) :: []) ∧ (∃ s : State, s.turns = .deliver 0x2B :: []) ∧
    (∃ s : State, s.busy = false ∧ s.turns = .waitIdle :: []) ∧ (State.reset.busy = false ∧ State.reset.turns = []) ∧
    ∃ s : State, s.busy = false ∧ s.turns = .engine :: [] :=
  ⟨⟨{ State.reset with turns := [.host (.read 4 4)] }, rfl⟩, ⟨{ State.reset with turns := [.deliver 0x2B] }, rfl⟩,
    ⟨{ State.reset with turns := [.waitIdle] }, rfl, rfl⟩, ⟨rfl, rfl⟩, ⟨{ State.reset with turns := [.engine] }, rfl, rfl⟩⟩
theorem witness_PlacedWordRunsNext : decode 0x42800000 = .ok (.rand 8 0) := rfl
theorem witness_ResetPutsEveryRegisterAtItsValue : ∃ s : State, s.busy = true ∧ s.turns = .rst :: [.engine] :=
  ⟨{ inFlight [] with turns := [.rst, .engine] }, rfl, rfl⟩
theorem witness_InvHoldsAfterReset : Config.Legal ⟨2⟩ ∧ Config.Legal ⟨512⟩ := by decide

/-- A state of a run with both contexts valid and MULMOD in flight. -/
def busyState : State :=
  { withMont3233 (withBar10000 (inFlight [(1, 65), (2, 17), (3, 3233)])) with cmd := 0x22012300 }

theorem busyState_inv : Inv busyState where
  legal := by decide
  regs := by decide
  compare := by decide
  inFlight := fun _ => ⟨rfl, rfl⟩
  idle := fun h => by cases h
  errIff := by decide
  codes := by decide
  mont := by refine ⟨by decide, by decide, fun _ => ?_, fun h => by cases h⟩; decide
  bar := by refine ⟨by decide, by decide, by decide, fun _ => ?_, fun h => by cases h⟩; decide

theorem witness_EveryStepKeepsInv : Inv busyState ∧ ∃ t, step busyState = .next t := ⟨busyState_inv, _, rfl⟩
theorem witness_ControlRegistersReadAndIgnoreWrites : Inv busyState := busyState_inv
theorem witness_IdleWriteToCmdIsAccepted : State.reset.busy = false := rfl
theorem witness_BusyWriteToCmdIsDropped : busyState.busy = true := rfl
theorem witness_StatusReadsItsFields_reserved : 4 ∈ [4, 5, 6, 7, 13, 14, 15] ∧ 18 ≤ 18 := by decide
theorem witness_OnlyAlignedFourByteAccesses :
    (0x3FFFE < 0x40000 ∧ 0x3FFFE % 4 ≠ 0) ∧ (0x11000 < 0x40000 ∧ (8 : Nat) ≠ 4) := by decide
theorem witness_WindowsAreClosedWhileBusy :
    busyState.busy = true ∧ (0x10000 % 4 = 0 ∧ 0x10000 ≤ 0x23FFC ∧ 0x23FFC % 4 = 0 ∧ 0x23FFC < 0x24000) ∧
    (0x1C % 4 = 0 ∧ 0x1C < 0x20 ∧ (0x1C : Nat) ≠ 4) ∧ (0x4 % 4 = 0 ∧ 0x4 < 0x20 ∧ (0x4 : Nat) ≠ 0) := by decide
theorem witness_UnmappedAccessesAreBusErrors :
    (0x20 % 4 = 0 ∧ 0x20 ≤ 0x20 ∧ 0x20 < 0x10000) ∧
    (0x11008 % 4 = 0 ∧ 0x10000 ≤ 0x11008 ∧ 0x11008 < 0x23000 ∧ State.reset.width / 32 ≤ 0x11008 % 0x1000 / 4) ∧
    (0x2300C % 4 = 0 ∧ 0x23000 ≤ 0x2300C ∧ 0x2300C < 0x24000 ∧ State.reset.width / 32 + 1 ≤ 0x2300C % 0x1000 / 4) ∧
    (0x24000 % 4 = 0 ∧ 0x24000 ≤ 0x24000 ∧ 0x24000 < 0x40000) ∧ 0x40000 ≤ 0x40000 := by decide
theorem witness_OperandWindowReadsAndWritesOneLimb :
    State.reset.cfg.Legal ∧ State.reset.busy = false ∧ 1 < State.reset.width / 32 ∧ (0 : Nat) ≠ 1 := by decide
theorem witness_ContextWindowsReadTheContexts :
    State.reset.cfg.Legal ∧ State.reset.busy = false ∧ 1 < State.reset.width / 32 ∧ 2 ≤ State.reset.width / 32 := by decide
theorem witness_ReadsAndBusErrorsChangeNothing :
    (∃ s : State, s.turns = .host (.read 0x3FFFC 4) :: []) ∧
    ∃ s : State, s.turns = .host (.write 0x24000 4 1) :: [] ∧ (s.memWrite 0x24000 4 1).2 = .busError :=
  ⟨⟨{ State.reset with turns := [.host (.read 0x3FFFC 4)] }, rfl⟩,
    { State.reset with turns := [.host (.write 0x24000 4 1)] }, rfl, rfl⟩
theorem witness_InterruptFollowsDoneAndEnable :
    (∃ t, exec .nop (inFlight []) = .next t ∧ t.busy = false) ∧ (inFlight []).busy = true ∧
    (0x00000002 : Word).getLsbD 1 = true ∧ State.reset.busy = false ∧ (0x00000000 : Word).getLsbD 0 = false :=
  ⟨⟨_, rfl, rfl⟩, rfl, rfl, rfl, rfl⟩
theorem witness_ErrorsWriteNothingElse :
    ((inFlight []).err = false ∧ ∃ t, exec (.mod 3 1 2) (inFlight []) = .next t ∧ t.err = true) ∧
    ∃ s : State, s.busy = true ∧ s.turns = [] ∧ decode s.cmd = .error .unassignedOpcode :=
  ⟨⟨rfl, _, rfl, rfl⟩, { inFlight [] with cmd := 0x03000000 }, rfl, rfl, rfl⟩
theorem witness_CommandStepIsHoldDrawOrCompletion_hold :
    (inFlight [(1, 9)]).rnd = [] ∧ ∃ t, exec (.isprime 1 1) { inFlight [(1, 9)] with rnd := [0] } = .next t ∧ t.rnd = [] :=
  ⟨rfl, _, rfl, rfl⟩
theorem witness_NothingTheCommandReadsChangesInFlight :
    ∃ s t : State, s.busy = true ∧ step s = .next t ∧ t.busy = true :=
  ⟨{ inFlight [(0, 40)] with cmd := 0x42300000, rnd := [1, 2] }, _, rfl, rfl, rfl⟩
theorem witness_FlagsChangeOnlyByTheirCommands :
    (∃ s t : State, s.turns.head? ≠ some .rst ∧ step s = .next t ∧ t.flagEq ≠ s.flagEq) ∧
    (∃ s t : State, s.turns.head? ≠ some .rst ∧ step s = .next t ∧ t.flagOdd ≠ s.flagOdd) ∧
    (∃ s t : State, s.turns.head? ≠ some .rst ∧ step s = .next t ∧ t.flagPrime ≠ s.flagPrime) ∧
    (∃ s t : State, s.turns.head? ≠ some .rst ∧ step s = .next t ∧ t.flagNone ≠ s.flagNone) :=
  ⟨⟨{ inFlight [] with cmd := 0x170DB000 }, _, by decide, rfl, by decide⟩,
    ⟨{ inFlight [(9, 1)] with cmd := 0x16090000 }, _, by decide, rfl, by decide⟩,
    ⟨{ inFlight [(1, 2)] with cmd := 0x40010032 }, _, by decide, rfl, by decide⟩,
    ⟨{ inFlight [(8, 0), (7, 7)] with cmd := 0x21A87000 }, _, by decide, rfl, by decide⟩⟩
theorem witness_ContextsChangeOnlyByTheirSetUp :
    (∃ s t : State, s.turns.head? ≠ some .rst ∧ step s = .next t ∧
      (t.mvalid, t.mn, t.mnp, t.mr2) ≠ (s.mvalid, s.mn, s.mnp, s.mr2)) ∧
    (∃ s t : State, s.turns.head? ≠ some .rst ∧ step s = .next t ∧
      (t.bvalid, t.bn, t.bk, t.bmu) ≠ (s.bvalid, s.bn, s.bk, s.bmu)) :=
  ⟨⟨{ inFlight [(5, 1)] with cmd := 0x30050000 }, _, by decide, rfl, by decide⟩,
    ⟨{ inFlight [(5, 1)] with cmd := 0x38050000 }, _, by decide, rfl, by decide⟩⟩
theorem witness_RegistersChangeOnlyByHostOrDestination :
    (∃ s t : State, s.turns.head? ≠ some .rst ∧ step s = .next t ∧ t.reg 15 ≠ s.reg 15) ∧
    (∃ s t : State, s.turns.head? ≠ some .rst ∧ step s = .next t ∧ t.reg 3 ≠ s.reg 3) :=
  ⟨⟨{ State.reset with turns := [.host (.write 0x1F004 4 1)] }, _, by decide, rfl, by decide⟩,
    ⟨{ inFlight [] with cmd := 0x01302710 }, _, by decide, rfl, by decide⟩⟩
theorem witness_PipelineIgnoresUnitContexts :
    (Instr.mulmod 0 1 2 3).pipeline = true ∧ (Instr.makeprime 0 1 5).pipeline = true := by decide
/-- RAND of 12 bits takes one word (V123). -/
theorem witness_SmallStepsAreTheBigStep :
    let s : State := { inFlight [(0, 12)] with cmd := 0x42800000, rnd := [0x9E3779B9] ++ [7] }
    s.busy = true ∧ s.turns = [] ∧ s.drawn = [] ∧ decode s.cmd = .ok (.rand 8 0) ∧ s.rnd = [0x9E3779B9] ++ [7] ∧
    (∀ p q, p ++ q = [0x9E3779B9] → q ≠ [] → exec (.rand 8 0) { s with drawn := p, rnd := [] } = .fault .rndHold) ∧
    ∃ t, exec (.rand 8 0) { s with drawn := [0x9E3779B9], rnd := [7], rndcnt := s.rndcnt + BitVec.ofNat 32 1 } = .next t ∧
      t.busy = false := by
  refine ⟨rfl, rfl, rfl, rfl, rfl, ?_, _, rfl, rfl⟩
  intro p q h hq
  cases p with
  | nil => rfl
  | cons a p =>
    simp only [List.cons_append, List.cons.injEq, List.append_eq_nil_iff] at h
    exact absurd h.2.2 hq
theorem witness_EngineDrawsExactlyTheWordsItUses :
    isPrime 9 1 [0] = some (false, []) ∧ isPrime 9 1 [] = none ∧ makePrime 2 1 [0, 5] = some (2, [5]) ∧
    makePrime 2 1 [] = none ∧ isPrime 9 1 ([] ++ [0]) = some (false, []) ∧ makePrime 2 1 ([] ++ [0]) = some (2, []) := by
  decide
theorem witness_DataMovementCommands : (65535 : Nat) < 65536 := by decide
theorem witness_ExactSumProductAndShift :
    (2 ^ 64 - 1) + 0 < 2 ^ State.reset.width ∧ 2 ^ State.reset.width ≤ (2 ^ 64 - 1) + 1 ∧
    (2 ^ 32 - 1) * (2 ^ 32 + 1) < 2 ^ State.reset.width ∧ 2 ^ State.reset.width ≤ 2 ^ 32 * 2 ^ 32 ∧
    1 * 2 ^ 63 < 2 ^ State.reset.width ∧ 2 ^ State.reset.width ≤ 1 * 2 ^ 64 := by decide
theorem witness_ExactDifferenceOrNegative :
    (inFlight []).x[(2 : Reg)] ≤ (inFlight []).x[(1 : Reg)] ∧
    (inFlight [(2, 1)]).x[(1 : Reg)] < (inFlight [(2, 1)]).x[(2 : Reg)] := by decide
theorem witness_LeastResidueOrZeroModulus :
    (inFlight [(2, 1)]).x[(2 : Reg)] ≠ 0 ∧ (inFlight []).x[(2 : Reg)] = 0 := by decide
theorem witness_LogicalShiftRight : (0 : Nat) < 65536 ∧ (inFlight []).x[(2 : Reg)] < 2 ^ 0 := by decide
theorem witness_ModinvWritesTheInverseOrNone :
    (inFlight []).x[(2 : Reg)] = 0 ∧
    ((inFlight [(2, 7)]).x[(2 : Reg)] ≠ 0 ∧ 1 < Nat.gcd (inFlight [(2, 7)]).x[(1 : Reg)] (inFlight [(2, 7)]).x[(2 : Reg)]) ∧
    ((inFlight [(2, 1)]).x[(2 : Reg)] ≠ 0 ∧
      Nat.gcd (inFlight [(2, 1)]).x[(1 : Reg)] (inFlight [(2, 1)]).x[(2 : Reg)] = 1) := by decide +kernel
theorem witness_BarsetComputesTheContext :
    (inFlight []).x[(5 : Reg)] = 0 ∧ (inFlight [(5, 1)]).x[(5 : Reg)] ≠ 0 := by decide
theorem witness_BarrettReductionIsExact : 1 ≤ 10000 ∧ barSetup 10000 = (10000, 14, 26843) ∧ 2 ^ 28 - 1 < 2 ^ (2 * 14) := by
  decide
theorem witness_BarrettCommandsReduceExactly_valid :
    BarCtx busyState ∧ busyState.bvalid = true ∧
    (let s := (busyState.setReg 1 (2 ^ 28 - 1)).setReg 2 9999
     BarCtx s ∧ s.bvalid = true ∧ s.x[(1 : Reg)] < 2 ^ (2 * s.bk) ∧ s.bn ≤ s.x[(1 : Reg)] ∧ s.x[(2 : Reg)] < s.bn) ∧
    (let s := busyState.setReg 1 (2 ^ 28)
     BarCtx s ∧ s.bvalid = true ∧ 2 ^ (2 * s.bk) ≤ s.x[(1 : Reg)]) ∧
    busyState.x[(1 : Reg)] < busyState.bn ∧ busyState.x[(2 : Reg)] < busyState.bn :=
  ⟨busyState_inv.bar, rfl, ⟨busyState_inv.bar, rfl, by decide, by decide, by decide⟩,
    ⟨busyState_inv.bar, rfl, by decide⟩, by decide, by decide⟩
theorem witness_BarrettCommandsReduceExactly_invalid : BarCtx State.reset ∧ State.reset.bvalid = false := by
  have h : State.reset.bvalid = false := rfl
  exact ⟨⟨Nat.two_pow_pos _, by decide, Nat.two_pow_pos _, fun hb => absurd (h.symm.trans hb) (by decide),
    fun _ => ⟨rfl, rfl, rfl⟩⟩, h⟩
theorem witness_MontsetComputesTheContext :
    (inFlight []).x[(5 : Reg)] = 0 ∧ ((inFlight [(5, 2)]).x[(5 : Reg)] ≠ 0 ∧ (inFlight [(5, 2)]).x[(5 : Reg)] % 2 = 0) ∧
    (inFlight [(5, 1)]).x[(5 : Reg)] % 2 = 1 := by decide
theorem witness_RedcDividesByTheRadix :
    3233 % 2 = 1 ∧ 3233 < 2 ^ 64 ∧ 3233 * 2 ^ 64 - 1 < 3233 * 2 ^ 64 ∧ 3232 < 3233 ∧ 0 < 3233 := by decide
theorem witness_MontgomeryCommandsComputeTheirForms_valid :
    MontCtx busyState ∧ busyState.mvalid = true ∧ busyState.x[(1 : Reg)] < busyState.mn ∧
    busyState.x[(2 : Reg)] < busyState.mn ∧ busyState.mn ≤ busyState.x[(3 : Reg)] :=
  ⟨busyState_inv.mont, rfl, by decide, by decide, by decide⟩
theorem witness_MontgomeryCommandsComputeTheirForms_invalid : MontCtx State.reset ∧ State.reset.mvalid = false := by
  have h : State.reset.mvalid = false := rfl
  exact ⟨⟨Nat.two_pow_pos _, Nat.two_pow_pos _, fun hm => absurd (h.symm.trans hm) (by decide),
    fun _ => ⟨rfl, rfl, rfl⟩⟩, h⟩
theorem witness_MontgomeryRouteIsTheModularProduct :
    3233 % 2 = 1 ∧ 3233 < 2 ^ 64 ∧ 1232 = 2 ^ (2 * 64) % 3233 ∧ 3232 < 3233 ∧ 17 < 3233 := by decide
theorem witness_SerialMontgomeryAgrees : 3233 % 2 = 1 ∧ 3233 < 2 ^ (32 * 2) ∧ 65 < 3233 ∧ 3232 < 3233 := by decide
theorem witness_ModularProductAndPower :
    (inFlight []).x[(3 : Reg)] = 0 ∧ (inFlight [(3, 1)]).x[(3 : Reg)] ≠ 0 := by decide
theorem witness_BothPipelineRealisationsArePowermod :
    (3233 % 2 = 1 ∧ 3233 < 2 ^ 64) ∧ (1 ≤ 10000 ∧ 10000 % 2 = 0) := by decide
/-- The key of program P3. -/
theorem witness_DecryptionUndoesEncryption :
    Nat.Prime 61 ∧ Nat.Prime 53 ∧ 61 ≠ 53 ∧ 17 * 2753 % ((61 - 1) * (53 - 1)) = 1 ∧ 3232 < 61 * 53 := by
  norm_num
theorem witness_DrawBitsAssemblesLittleEndian :
    ([] : List Word).length < (1 + 31) / 32 ∧ (32 + 31) / 32 ≤ [(7 : Word)].length := by decide
theorem witness_DrawBelowRetriesUntilBelow :
    (1 ≤ 88 ∧ 88 - 1 < 2 ^ 7 ∧ ∀ k', 88 - 1 < 2 ^ k' → 7 ≤ k') ∧ drawBits 7 [] = none ∧
    (drawBits 7 [0xB4733AC5] = some (69, []) ∧ 69 < 88) ∧ (drawBits 7 [0x8116017E] = some (126, []) ∧ 88 ≤ 126) ∧
    drawBelow 88 [0x8116017E, 0xB4733AC5] = some (69, []) := by
  refine ⟨⟨by decide, by decide, fun k h => ?_⟩, by decide, by decide, by decide, by decide⟩
  by_contra hk
  have := Nat.pow_le_pow_right (n := 2) (by decide) (show k ≤ 6 by omega)
  omega
theorem witness_FactorSplitsOffThePowerOfTwo : 3 % 2 = 1 ∧ 3 ≤ 3 ∧ 1 % 2 = 1 ∧ 3 - 1 = 1 * 2 ^ 1 := by decide
/-- n = 9: the witness 2 rejects; n = 5: the witness 2 passes (V111, V109); without a word the test asks for one. -/
theorem witness_PrimalityTestRunsItsRounds :
    (5 ≤ 9 ∧ 9 % 2 = 1 ∧ 1 % 2 = 1 ∧ 9 - 1 = 1 * 2 ^ 3 ∧ drawBelow (9 - 3) [0x12345678] = some (0, []) ∧
      ¬ ((2 + 0) ^ 1 % 9 = 1 ∨ ∃ j, j ≤ 3 - 1 ∧ (2 + 0) ^ (1 * 2 ^ j) % 9 = 9 - 1)) ∧
    (5 ≤ 5 ∧ 5 % 2 = 1 ∧ 5 - 1 = 1 * 2 ^ 2 ∧ drawBelow (5 - 3) [0x12345678] = some (0, []) ∧
      ((2 + 0) ^ 1 % 5 = 1 ∨ ∃ j, j ≤ 2 - 1 ∧ (2 + 0) ^ (1 * 2 ^ j) % 5 = 5 - 1)) ∧
    drawBelow (5 - 3) [] = none := by
  refine ⟨⟨by decide, by decide, by decide, by decide, by decide, ?_⟩, ⟨by decide, by decide, by decide, by decide, .inr ⟨1, by decide, by decide⟩⟩, by decide⟩
  rintro (h | ⟨j, hj, h⟩)
  · exact absurd h (by decide)
  · interval_cases j <;> exact absurd h (by decide)
theorem witness_CompositeVerdictIsAlwaysRight :
    isPrime 9 1 [0] = some (false, []) ∧ isPrime 5 1 [0] = some (true, []) ∧ Nat.Prime 5 := by
  refine ⟨by decide, by decide, by norm_num⟩
theorem witness_IsprimeWritesTheVerdict :
    isPrime (inFlight [(1, 9)]).x[(1 : Reg)] 1 [0] = some (false, []) ∧ (inFlight [(1, 1)]).x[(1 : Reg)] < 2 ∧
    ((inFlight [(1, 4)]).x[(1 : Reg)] % 2 = 0 ∧ (inFlight [(1, 4)]).x[(1 : Reg)] ≠ 2) ∧
    (inFlight [(1, 2)]).x[(1 : Reg)] = 2 ∧ (inFlight [(1, 3)]).x[(1 : Reg)] = 3 ∧
    (5 ≤ (inFlight [(1, 5)]).x[(1 : Reg)] ∧ (inFlight [(1, 5)]).x[(1 : Reg)] % 2 = 1) ∧
    (isPrime (inFlight [(1, 9)]).x[(1 : Reg)] 1 (inFlight [(1, 9)]).drawn = none ∧
      ({ inFlight [(1, 9)] with rnd := [3] }).rnd = 3 :: []) ∧ 1 < 65536 := by decide
theorem witness_RandWritesACandidate :
    (inFlight []).x[(0 : Reg)] < 1 ∧ (inFlight []).width < (inFlight [(0, 65)]).x[(0 : Reg)] ∧
    (1 ≤ (inFlight [(0, 1)]).x[(0 : Reg)] ∧ ((inFlight [(0, 1)]).x[(0 : Reg)] - 1 + 31) / 32 ≤ (inFlight []).drawn.length) ∧
    ((inFlight [(0, 64)]).x[(0 : Reg)] ≤ (inFlight [(0, 64)]).width ∧
      (inFlight [(0, 64)]).drawn.length < ((inFlight [(0, 64)]).x[(0 : Reg)] - 1 + 31) / 32 ∧
      ({ inFlight [(0, 64)] with rnd := [3] }).rnd = 3 :: []) := by decide
theorem witness_MakeprimeSearchesCandidates :
    2 ≤ 2 ∧ candidate 2 [] = none ∧ candidate 2 [0xFFFFFFFE, 7] = some (2, [7]) ∧ isPrime 2 50 [7] = some (true, [7]) ∧
    (candidate 3 [0] = some (4, []) ∧ isPrime 4 1 [] = some (false, [])) ∧
    (candidate 3 [1] = some (5, []) ∧ isPrime 5 1 [] = none) := by decide
theorem witness_MakeprimeWritesAnAcceptedNumber :
    50 < 65536 ∧ (inFlight [(1, 1)]).x[(1 : Reg)] < 2 ∧ (inFlight []).width < (inFlight [(1, 65)]).x[(1 : Reg)] ∧
    (2 ≤ (inFlight [(1, 2)]).x[(1 : Reg)] ∧ (inFlight [(1, 2)]).x[(1 : Reg)] ≤ (inFlight [(1, 2)]).width ∧
      makePrime (inFlight [(1, 2)]).x[(1 : Reg)] 50 [0xFFFFFFFE] = some (2, []) ∧
      makePrime (inFlight [(1, 2)]).x[(1 : Reg)] 50 (inFlight [(1, 2)]).drawn = none ∧ ({ inFlight [(1, 2)] with rnd := [3] }).rnd = 3 :: []) ∧
    (inFlight [(1, 64)]).x[(1 : Reg)] ≤ (inFlight [(1, 64)]).width := by decide

end Sys2Proof.Tests
end

section
/-! PROOFS. Reset and the writes to CMD and CTRL (10_state.md R25, R34, R40, R43): the rules of a reset move, of the fields it
leaves, and of an access to the two control registers, then the four statements. -/

namespace Sys2Proof.Machine

variable (s : State)

/-! ## Reset -/

@[simp] theorem State.rst_flagEq : s.rst.flagEq = false := rfl
@[simp] theorem State.rst_flagLt : s.rst.flagLt = false := rfl
@[simp] theorem State.rst_flagOdd : s.rst.flagOdd = false := rfl
@[simp] theorem State.rst_flagPrime : s.rst.flagPrime = false := rfl
@[simp] theorem State.rst_flagNone : s.rst.flagNone = false := rfl
@[simp] theorem State.rst_done : s.rst.done = false := rfl
@[simp] theorem State.rst_err : s.rst.err = false := rfl
@[simp] theorem State.rst_ovr : s.rst.ovr = false := rfl
@[simp] theorem State.rst_ie : s.rst.ie = false := rfl
@[simp] theorem State.rst_cmd : s.rst.cmd = 0x00000000 := rfl
@[simp] theorem State.rst_errcode : s.rst.errcode = 0x00 := rfl
@[simp] theorem State.rst_rndcnt : s.rst.rndcnt = 0x00000000 := rfl
@[simp] theorem State.rst_mvalid : s.rst.mvalid = false := rfl
@[simp] theorem State.rst_mn : s.rst.mn = 0 := rfl
@[simp] theorem State.rst_mnp : s.rst.mnp = 0 := rfl
@[simp] theorem State.rst_mr2 : s.rst.mr2 = 0 := rfl
@[simp] theorem State.rst_bvalid : s.rst.bvalid = false := rfl
@[simp] theorem State.rst_bn : s.rst.bn = 0 := rfl
@[simp] theorem State.rst_bk : s.rst.bk = 0 := rfl
@[simp] theorem State.rst_bmu : s.rst.bmu = 0 := rfl
@[simp] theorem State.rst_irq : s.rst.irq = false := rfl

/-- A reset pulse is a move of the environment in every state, also with a command in flight. -/
theorem step_rst {s : State} {ts : List Turn} (h : s.turns = .rst :: ts) :
    step s = .next { s with turns := ts }.rst := by
  have henv : s.engineTurn = none := by simp [State.engineTurn, h]
  rw [step_env henv]
  simp [State.envTurn, h]

/-! ## Accesses to the control registers -/

@[simp] theorem locate_cmd (limbs : Nat) : locate limbs 0x000 = some .cmd := rfl
@[simp] theorem locate_ctrl (limbs : Nat) : locate limbs 0x008 = some .ctrl := rfl

/-- A 4-byte access to a control register goes on, whatever BUSY is (20_memory.md R58). -/
theorem State.target_control {s : State} {addr : Nat} {l : Loc} (hl : locate s.cfg.limbs addr = some l)
    (hw : l.isWindow = false) (hlt : addr < 0x40000) (ha : addr % 4 = 0) : s.target addr 4 = .ok l := by
  simp [State.target, Nat.not_le.mpr hlt, ha, hl, hw]

theorem State.target_cmd : s.target 0x000 4 = .ok .cmd :=
  State.target_control (locate_cmd _) rfl (by decide) (by decide)

theorem State.target_ctrl : s.target 0x008 4 = .ok .ctrl :=
  State.target_control (locate_ctrl _) rfl (by decide) (by decide)

theorem State.writeCmd_idle {s : State} (w : Word) (h : s.busy = false) : s.writeCmd w = s.accept w := by
  simp [State.writeCmd, h]

theorem State.writeCmd_busy {s : State} (w : Word) (h : s.busy = true) : s.writeCmd w = { s with ovr := true } := by
  simp [State.writeCmd, h]

theorem State.memWrite_cmd (w : Word) : s.memWrite 0x000 4 w = (s.writeCmd w, .writeOk) :=
  State.memWrite_ok s.target_cmd

theorem bitAt_zero (b : Bool) : bitAt b 0 = if b then 0x00000001 else 0x00000000 := by
  cases b <;> rfl

theorem State.memRead_ctrl : s.memRead 0x008 4 = .readOk (if s.ie then 0x00000001 else 0x00000000) := by
  rw [State.memRead_ok s.target_ctrl, State.load, bitAt_zero]

theorem State.memWrite_ctrl (v : Word) : s.memWrite 0x008 4 v = ({ s with ie := v.getLsbD 0 }, .writeOk) :=
  State.memWrite_ok s.target_ctrl

/-! ## The statements -/

/-- Settles O9: the move is `State.rst`, whose fields are those of 10_state.md R34. -/
theorem resetPutsEveryRegisterAtItsValue : Obligations.ResetPutsEveryRegisterAtItsValue := by
  intro s ts h
  refine ⟨_, step_rst h, State.rst_reg _, ?_⟩
  simp

/-- Settles O12: the write reaches CMD, and an idle machine accepts the word. -/
theorem idleWriteToCmdIsAccepted : Obligations.IdleWriteToCmdIsAccepted := by
  intro s w h
  rw [State.memWrite_cmd, State.writeCmd_idle w h, State.accept]

/-- Settles O13: the write reaches CMD, and a busy machine drops the word. -/
theorem busyWriteToCmdIsDropped : Obligations.BusyWriteToCmdIsDropped := by
  intro s w h
  rw [State.memWrite_cmd, State.writeCmd_busy w h]

/-- Settles O15: an access to CTRL reaches it in every state, and IE is 0 after reset. -/
theorem ctrlHoldsInterruptEnable : Obligations.CtrlHoldsInterruptEnable := by
  intro s
  exact ⟨s.memRead_ctrl, s.memWrite_ctrl, State.reset.memRead_ctrl⟩

end Sys2Proof.Machine
end

section
/-! PROOFS. The bus (20_memory.md R54, R56 to R58): what `setLimb` does to each limb, where each part of the register map lies,
when an access goes on and when it is a BusError, then the four statements. -/

namespace Sys2Proof.Machine

/-! ## Replacing one limb -/

theorem two_pow_limb_succ (j : Nat) : 2 ^ (32 * (j + 1)) = 2 ^ 32 * 2 ^ (32 * j) := by
  rw [← pow_add]; congr 1; omega

/-- `setLimb` as the limbs below j, and on them the number that begins at limb j. -/
theorem setLimb_eq (v j : Nat) (w : Word) : setLimb v j w =
    v % 2 ^ (32 * j) + 2 ^ (32 * j) * (2 ^ 32 * (v / 2 ^ (32 * (j + 1))) + w.toNat) := by
  rw [setLimb, two_pow_limb_succ]; ring

theorem setLimb_div (v j : Nat) (w : Word) :
    setLimb v j w / 2 ^ (32 * j) = 2 ^ 32 * (v / 2 ^ (32 * (j + 1))) + w.toNat := by
  have hlow : v % 2 ^ (32 * j) < 2 ^ (32 * j) := Nat.mod_lt _ (Nat.two_pow_pos _)
  rw [setLimb_eq, Nat.add_mul_div_left _ _ (Nat.two_pow_pos _), Nat.div_eq_of_lt hlow, Nat.zero_add]

theorem setLimb_mod_low (v j : Nat) (w : Word) : setLimb v j w % 2 ^ (32 * j) = v % 2 ^ (32 * j) := by
  rw [setLimb_eq, Nat.add_mul_mod_self_left, Nat.mod_mod]

theorem setLimb_div_high (v j : Nat) (w : Word) :
    setLimb v j w / 2 ^ (32 * (j + 1)) = v / 2 ^ (32 * (j + 1)) := by
  have hsplit : setLimb v j w / 2 ^ (32 * (j + 1)) = setLimb v j w / 2 ^ (32 * j) / 2 ^ 32 := by
    rw [two_pow_limb_succ, Nat.mul_comm, Nat.div_div_eq_div_mul]
  rw [hsplit, setLimb_div]
  omega

theorem limb_setLimb_same (v j : Nat) (w : Word) : limb (setLimb v j w) j = w := by
  apply BitVec.eq_of_toNat_eq
  rw [limb_toNat, setLimb_div]
  omega

/-- A limb depends only on the part of the number from it upwards. -/
theorem limb_eq_of_div_eq {v v' j k : Nat} (h : v / 2 ^ (32 * j) = v' / 2 ^ (32 * j)) (hjk : j ≤ k) :
    limb v k = limb v' k := by
  obtain ⟨d, rfl⟩ := Nat.exists_eq_add_of_le hjk
  simp only [limb, Nat.mul_add, pow_add, ← Nat.div_div_eq_div_mul, h]

/-- A limb depends only on the part of the number up to it. -/
theorem limb_eq_of_mod_eq {v v' j k : Nat} (h : v % 2 ^ (32 * j) = v' % 2 ^ (32 * j)) (hkj : k < j) :
    limb v k = limb v' k := by
  have hdvd : 2 ^ (32 * (k + 1)) ∣ 2 ^ (32 * j) := Nat.pow_dvd_pow 2 (by omega)
  have hmod : v % 2 ^ (32 * (k + 1)) = v' % 2 ^ (32 * (k + 1)) := by
    rw [← Nat.mod_mod_of_dvd v hdvd, h, Nat.mod_mod_of_dvd v' hdvd]
  apply BitVec.eq_of_toNat_eq
  rw [limb_toNat, limb_toNat, ← Nat.mod_mul_right_div_self, ← Nat.mod_mul_right_div_self, Nat.mul_comm,
    ← two_pow_limb_succ, hmod]

theorem limb_setLimb_other {v j k : Nat} (w : Word) (h : k ≠ j) : limb (setLimb v j w) k = limb v k := by
  rcases Nat.lt_or_gt_of_ne h with hlt | hgt
  · exact limb_eq_of_mod_eq (setLimb_mod_low v j w) hlt
  · exact limb_eq_of_div_eq (setLimb_div_high v j w) hgt

/-! ## The register map -/

theorem State.width_div_limb (s : State) : s.width / 32 = s.cfg.limbs := by
  rw [State.width, Config.width]; omega

theorem slot_mapped {limbs j : Nat} (base : Nat) (mk : Nat → Loc) (hj : j < limbs) :
    slot limbs base (base + 4 * j) mk = some (mk j) := by
  have hidx : (base + 4 * j - base) / 4 = j := by omega
  rw [slot, hidx, if_pos hj]

theorem isWindow_of_slot {limbs base addr : Nat} {mk : Nat → Loc} {l : Loc} (h : slot limbs base addr mk = some l)
    (hmk : ∀ j, (mk j).isWindow = true) : l.isWindow = true := by
  unfold slot at h
  split at h
  · exact Option.some.inj h ▸ hmk _
  · cases h

theorem locate_operand {limbs j : Nat} (i : Reg) (hj : j < limbs) (hl : limbs ≤ 512) :
    locate limbs (0x10000 + 0x1000 * i.val + 4 * j) = some (.operand i j) := by
  have hi := i.isLt
  have hslot : (0x10000 + 0x1000 * i.val + 4 * j) / 0x1000 = 16 + i.val := by omega
  have hbase : (16 + i.val) * 0x1000 = 0x10000 + 0x1000 * i.val := by omega
  have hreg : (16 + i.val) % 16 = i.val := by omega
  simp (disch := omega) only [locate, if_neg, if_pos, hslot, hbase, hreg, slot_mapped _ _ hj]

theorem locate_mnLimb {limbs j : Nat} (hj : j < limbs) (hl : limbs ≤ 512) :
    locate limbs (0x20000 + 4 * j) = some (.mnLimb j) := by
  simp (disch := omega) only [locate, if_neg, if_pos, slot_mapped _ _ hj]

theorem locate_mr2Limb {limbs j : Nat} (hj : j < limbs) (hl : limbs ≤ 512) :
    locate limbs (0x21000 + 4 * j) = some (.mr2Limb j) := by
  simp (disch := omega) only [locate, if_neg, if_pos, slot_mapped _ _ hj]

theorem locate_bnLimb {limbs j : Nat} (hj : j < limbs) (hl : limbs ≤ 512) :
    locate limbs (0x22000 + 4 * j) = some (.bnLimb j) := by
  simp (disch := omega) only [locate, if_neg, if_pos, slot_mapped _ _ hj]

/-- BMU has W + 32 bits, so its window has one limb more (20_memory.md R57). -/
theorem locate_bmuLimb {limbs j : Nat} (hj : j < limbs + 1) (hl : limbs ≤ 512) :
    locate limbs (0x23000 + 4 * j) = some (.bmuLimb j) := by
  simp (disch := omega) only [locate, if_neg, if_pos, slot_mapped _ _ hj]

theorem isWindow_of_locate {limbs addr : Nat} {l : Loc} (h : locate limbs addr = some l) (hlo : 0x10000 ≤ addr) :
    l.isWindow = true := by
  simp (disch := omega) only [locate, if_neg] at h
  split_ifs at h
  all_goals exact isWindow_of_slot h fun _ => rfl

/-- Every aligned address below 0x20 is a control register, and CMD and STATUS stand at their own addresses. -/
theorem locate_control (limbs : Nat) {addr : Nat} (hlt : addr < 0x20) (ha : addr % 4 = 0) :
    ∃ l, locate limbs addr = some l ∧ l.isWindow = false ∧ (l = .cmd → addr = 0x000) ∧ (l = .status → addr = 0x004) := by
  obtain ⟨k, rfl⟩ : ∃ k, addr = 4 * k := ⟨addr / 4, by omega⟩
  have hk : k < 8 := by omega
  interval_cases k <;> simp [locate, Loc.isWindow]

/-! ## When an access goes on -/

/-- While BUSY = 0 every mapped location is open. -/
theorem State.target_idle {s : State} {addr : Nat} {l : Loc} (hb : s.busy = false)
    (hl : locate s.cfg.limbs addr = some l) (hlt : addr < 0x40000) (ha : addr % 4 = 0) : s.target addr 4 = .ok l := by
  simp [State.target, Nat.not_le.mpr hlt, ha, hl, hb]

theorem State.target_bad_size_or_alignment (s : State) {addr n : Nat} (hlt : addr < 0x40000) (h : n ≠ 4 ∨ addr % 4 ≠ 0) :
    s.target addr n = .error .busError := by
  rw [State.target, if_neg (Nat.not_le.mpr hlt), if_pos h]

/-- Below 0x40000 a BusError is the only way an access ends early. -/
theorem State.target_error {s : State} {addr n : Nat} {r : BusReply} (h : s.target addr n = .error r)
    (hlt : addr < 0x40000) : r = .busError := by
  rw [State.target, if_neg (Nat.not_le.mpr hlt)] at h
  split at h
  · exact (Except.error.inj h).symm
  · split at h
    · exact (Except.error.inj h).symm
    · split at h
      · exact (Except.error.inj h).symm
      · cases h

theorem State.target_window_busy {s : State} {addr : Nat} (hb : s.busy = true) (hlo : 0x10000 ≤ addr)
    (hhi : addr < 0x40000) : s.target addr 4 = .error .busError := by
  cases ht : s.target addr 4 with
  | error r => rw [State.target_error ht hhi]
  | ok l =>
    obtain ⟨-, -, -, hl, hopen⟩ := State.target_ok ht
    have hidle : s.busy = false := hopen (isWindow_of_locate hl hlo)
    rw [hb] at hidle
    cases hidle

/-! ## What BUSY changes at a control register -/

theorem State.load_clear_busy (s : State) {l : Loc} (h : l ≠ .status) :
    State.load { s with busy := false } l = s.load l := by
  cases l with
  | status => exact absurd rfl h
  | _ => rfl

theorem State.store_clear_busy (s : State) {l : Loc} (v : Word) (h : l ≠ .cmd) :
    State.store { s with busy := false } l v = { s.store l v with busy := false } := by
  cases l with
  | cmd => exact absurd rfl h
  | _ => rfl

/-- BUSY is bit 0 of STATUS and no other (10_state.md R23). -/
theorem State.statusWord_busy {s : State} (hb : s.busy = true) :
    s.statusWord = State.statusWord { s with busy := false } ||| 0x00000001 := by
  have hset : bitAt s.busy 0 = 0x00000001 ||| bitAt false 0 := by rw [hb]; rfl
  rw [BitVec.or_comm _ 0x00000001]
  simp only [State.statusWord, hset, BitVec.or_assoc]

/-! ## The statements -/

/-- Settles O17: size and alignment come before the map. -/
theorem onlyAlignedFourByteAccesses : Obligations.OnlyAlignedFourByteAccesses := by
  intro s addr n v hlt h
  have ht := s.target_bad_size_or_alignment hlt h
  exact ⟨State.memRead_error ht, State.memWrite_error ht⟩

/-- Settles O18: BUSY closes the locations that are windows and no other, and at a control register it shows only in STATUS
and in a write to CMD. -/
theorem windowsAreClosedWhileBusy : Obligations.WindowsAreClosedWhileBusy := by
  intro s addr v hb ha
  refine ⟨fun hlo hhi => ?window, fun hlt hne => ?read, ?status, fun hlt hne => ?write, ?cmd⟩
  case window =>
    have ht := State.target_window_busy hb hlo (by omega : addr < 0x40000)
    exact ⟨State.memRead_error ht, State.memWrite_error ht⟩
  case read =>
    obtain ⟨l, hl, hw, -, hstatus⟩ := locate_control s.cfg.limbs hlt ha
    have ht : s.target addr 4 = .ok l := State.target_control hl hw (by omega) ha
    have hidle : State.target { s with busy := false } addr 4 = .ok l := State.target_control hl hw (by omega) ha
    rw [State.memRead_ok ht, State.memRead_ok hidle,
      s.load_clear_busy fun h => hne (hstatus h)]
  case status =>
    have ht : s.target 0x004 4 = .ok .status := State.target_control rfl rfl (by decide) (by decide)
    rw [State.memRead_ok ht, State.load, State.statusWord_busy hb]
  case write =>
    obtain ⟨l, hl, hw, hcmd, -⟩ := locate_control s.cfg.limbs hlt ha
    have ht : s.target addr 4 = .ok l := State.target_control hl hw (by omega) ha
    have hidle : State.target { s with busy := false } addr 4 = .ok l := State.target_control hl hw (by omega) ha
    rw [State.memWrite_ok ht, State.memWrite_ok hidle,
      s.store_clear_busy v fun h => hne (hcmd h)]
  case cmd => exact busyWriteToCmdIsDropped s v hb

/-- Settles O20: the address is the slot of `x[i]` and its limb j, and a write there is `setLimb`. -/
theorem operandWindowReadsAndWritesOneLimb : Obligations.OperandWindowReadsAndWritesOneLimb := by
  intro s i j ⟨_, hlegal⟩ hb hj
  rw [State.width_div_limb] at hj
  have hi := i.isLt
  have ht : s.target (0x10000 + 0x1000 * i.val + 4 * j) 4 = .ok (.operand i j) :=
    State.target_idle hb (locate_operand i hj hlegal) (by omega) (by omega)
  refine ⟨⟨limb (s.reg i) j, State.memRead_ok ht, limb_toNat _ _⟩, fun v => ?_⟩
  refine ⟨setLimb (s.reg i) j v, State.memWrite_ok ht, ?_, fun k hk => ?_⟩
  · rw [← limb_toNat, limb_setLimb_same]
  · rw [← limb_toNat, ← limb_toNat, limb_setLimb_other v hk]

/-- An access to a limb of a context register while BUSY = 0: the value stored is read, and a write does nothing. -/
theorem State.access_context {s : State} {addr j val : Nat} {l : Loc} (v : Word) (ht : s.target addr 4 = .ok l)
    (hload : s.load l = limb val j) (hstore : s.store l v = s) :
    (∃ w : Word, s.memRead addr 4 = .readOk w ∧ w.toNat = val / 2 ^ (32 * j) % 2 ^ 32) ∧
      s.memWrite addr 4 v = (s, .writeOk) := by
  refine ⟨⟨limb val j, ?_, limb_toNat val j⟩, ?_⟩
  · rw [State.memRead_ok ht, hload]
  · rw [State.memWrite_ok ht, hstore]

/-- Settles O21: each address is one limb of one context register, read whatever MVALID and BVALID are. -/
theorem contextWindowsReadTheContexts : Obligations.ContextWindowsReadTheContexts := by
  intro s j v ⟨_, hlegal⟩ hb
  rw [State.width_div_limb]
  refine ⟨fun hj => ?_, fun hj => ?_⟩
  · obtain ⟨hmnRead, hmnWrite⟩ := State.access_context (val := s.mn) (j := j) v
      (State.target_idle hb (locate_mnLimb hj hlegal) (by omega) (by omega)) rfl rfl
    obtain ⟨hmr2Read, hmr2Write⟩ := State.access_context (val := s.mr2) (j := j) v
      (State.target_idle hb (locate_mr2Limb hj hlegal) (by omega) (by omega)) rfl rfl
    obtain ⟨hbnRead, hbnWrite⟩ := State.access_context (val := s.bn) (j := j) v
      (State.target_idle hb (locate_bnLimb hj hlegal) (by omega) (by omega)) rfl rfl
    exact ⟨hmnRead, hmr2Read, hbnRead, hmnWrite, hmr2Write, hbnWrite⟩
  · exact State.access_context v
      (State.target_idle hb (locate_bmuLimb (Nat.lt_succ_of_le hj) hlegal) (by omega) (by omega)) rfl rfl

end Sys2Proof.Machine
end

section
/-! PROOFS. The encoding examples of 30_encoding.md R85. They are fixed words, so both directions are computed; the round trip
for every command and every word is the matter of other statements. -/

namespace Sys2Proof.Machine

/-- Settles O4: the encoder on the fifteen commands by the formulas of R81 and R82, then the decoder on the fifteen words. -/
theorem specEncodingExamples : Obligations.SpecEncodingExamples := by
  refine forall₂_and.mpr ⟨?encoder, ?decoder⟩
  case encoder => decide
  case decoder => decide

end Sys2Proof.Machine
end

section
/-! PROOFS. The word of a command (30_encoding.md R81 to R86): what the fields of a word are, when the decoder reads a command
from it, and that a well-formed command is the meaning of its encoding and of no other word. -/

namespace Sys2Proof

/-! ## The fields of a word -/

theorem testBit_reg_of_le (r : Reg) {i : Nat} (h : 4 ≤ i) : r.val.testBit i = false :=
  Nat.testBit_lt_two_pow (r.isLt.trans_le (Nat.pow_le_pow_right (n := 2) (by decide) h))

theorem testBit_imm_of_le {imm : Nat} (h : imm < 65536) {i : Nat} (hi : 16 ≤ i) : imm.testBit i = false :=
  Nat.testBit_lt_two_pow (h.trans_le (Nat.pow_le_pow_right (n := 2) (by decide) hi))

theorem regAt_eq_iff {lo : Nat} {w : Word} {r : Reg} :
    regAt lo w = r ↔ ∀ i < 4, w.getLsbD (lo + i) = r.val.testBit i := by
  have bit (i : Nat) : (regAt lo w).val.testBit i = (decide (i < 4) && w.getLsbD (lo + i)) := by
    simp [regAt, Nat.testBit_mod_two_pow _ 4, BitVec.getLsbD]
  constructor
  · rintro rfl i hi
    simp [bit, hi]
  · intro h
    refine Fin.ext (Nat.eq_of_testBit_eq fun i => ?_)
    by_cases hi : i < 4
    · simp [bit, hi, h]
    · simp [bit, hi, testBit_reg_of_le r (not_lt.mp hi)]

theorem immOf_eq {w : Word} {imm : Nat} (h : imm < 65536) (hw : ∀ i < 16, w.getLsbD i = imm.testBit i) :
    immOf w = imm := by
  have bit (i : Nat) : (immOf w).testBit i = (decide (i < 16) && w.getLsbD i) := Nat.testBit_mod_two_pow _ 16 i
  refine Nat.eq_of_testBit_eq fun i => ?_
  by_cases hi : i < 16
  · simp [bit, hi, hw]
  · simp [bit, hi, testBit_imm_of_le h (not_lt.mp hi)]

@[simp] theorem fields_formatR (op : Word) (rd ra rb rc : Reg) :
    rdOf (formatR op rd ra rb rc) = rd ∧ raOf (formatR op rd ra rb rc) = ra ∧
      rbOf (formatR op rd ra rb rc) = rb ∧ rcOf (formatR op rd ra rb rc) = rc := by
  refine ⟨regAt_eq_iff.mpr ?rd, regAt_eq_iff.mpr ?ra, regAt_eq_iff.mpr ?rb, regAt_eq_iff.mpr ?rc⟩
  all_goals
    intro i hi
    simp only [formatR, BitVec.getLsbD_or, BitVec.getLsbD_shiftLeft, BitVec.getLsbD_ofNat]
    simp (disch := omega) [testBit_reg_of_le, decide_eq_true]

theorem fields_formatI (op : Word) (rd ra : Reg) {imm : Nat} (h : imm < 65536) :
    rdOf (formatI op rd ra imm) = rd ∧ raOf (formatI op rd ra imm) = ra ∧ immOf (formatI op rd ra imm) = imm := by
  refine ⟨regAt_eq_iff.mpr ?rd, regAt_eq_iff.mpr ?ra, immOf_eq h ?imm⟩
  all_goals
    intro i hi
    simp only [formatI, BitVec.getLsbD_or, BitVec.getLsbD_shiftLeft, BitVec.getLsbD_ofNat]
    simp (disch := omega) [testBit_reg_of_le, testBit_imm_of_le h, decide_eq_true]

theorem ofNat_mod_two_pow (w : Word) (k : Nat) : BitVec.ofNat 32 (w.toNat % 2 ^ k) = w &&& BitVec.ofNat 32 (2 ^ k - 1) := by
  refine BitVec.eq_of_getLsbD_eq fun i hi => ?_
  simp only [BitVec.getLsbD_and, BitVec.getLsbD_ofNat, hi, Nat.testBit_mod_two_pow, Nat.testBit_two_pow_sub_one]
  simp [BitVec.getLsbD, Bool.and_comm]

/-- The immediate is the part of the word under the low sixteen bits. -/
theorem ofNat_immOf (w : Word) : BitVec.ofNat 32 (immOf w) = w &&& 0xFFFF#32 := ofNat_mod_two_pow w 16

/-- A register field, put back in its place, is the part of the word under the field's four bits. -/
theorem ofNat_regAt_shiftLeft (lo : Nat) (w : Word) : BitVec.ofNat 32 (regAt lo w) <<< lo = w &&& 0xF#32 <<< lo := by
  have hreg : BitVec.ofNat 32 (regAt lo w) = w >>> lo &&& 0xF#32 := ofNat_mod_two_pow (w >>> lo) 4
  rw [hreg, BitVec.shiftLeft_and_distrib]
  ext i hi
  by_cases hlo : i < lo
  · simp [hlo]
  · simp [hlo, show lo + (i - lo) = i by omega, BitVec.getLsbD_eq_getElem hi]

/-! ## What the decoder accepts -/

/-- The command of the shape of `i` with its operands read from the fields of `w` (30_encoding.md R83, R84). -/
def Instr.readFrom (w : Word) : Instr → Instr
  | .nop => .nop
  | .li _ _ => .li (rdOf w) (immOf w)
  | .mov _ _ => .mov (rdOf w) (raOf w)
  | .add _ _ _ => .add (rdOf w) (raOf w) (rbOf w)
  | .sub _ _ _ => .sub (rdOf w) (raOf w) (rbOf w)
  | .mul _ _ _ => .mul (rdOf w) (raOf w) (rbOf w)
  | .mod _ _ _ => .mod (rdOf w) (raOf w) (rbOf w)
  | .shl _ _ _ => .shl (rdOf w) (raOf w) (immOf w)
  | .shr _ _ _ => .shr (rdOf w) (raOf w) (immOf w)
  | .parity _ => .parity (raOf w)
  | .cmp _ _ => .cmp (raOf w) (rbOf w)
  | .gcd _ _ _ => .gcd (rdOf w) (raOf w) (rbOf w)
  | .modinv _ _ _ => .modinv (rdOf w) (raOf w) (rbOf w)
  | .mulmod _ _ _ _ => .mulmod (rdOf w) (raOf w) (rbOf w) (rcOf w)
  | .powmod _ _ _ _ => .powmod (rdOf w) (raOf w) (rbOf w) (rcOf w)
  | .montset _ => .montset (raOf w)
  | .montmul _ _ _ => .montmul (rdOf w) (raOf w) (rbOf w)
  | .tomont _ _ => .tomont (rdOf w) (raOf w)
  | .frommont _ _ => .frommont (rdOf w) (raOf w)
  | .barset _ => .barset (raOf w)
  | .barred _ _ => .barred (rdOf w) (raOf w)
  | .barmul _ _ _ => .barmul (rdOf w) (raOf w) (rbOf w)
  | .isprime _ _ => .isprime (raOf w) (immOf w)
  | .makeprime _ _ _ => .makeprime (rdOf w) (raOf w) (immOf w)
  | .rand _ _ => .rand (rdOf w) (raOf w)

/-- The word meets the row of the command in the opcode table, `w & mask = match` (30_encoding.md R84, R86). -/
def MeetsRow (w : Word) (i : Instr) : Prop := w &&& (tableRow i).1 = (tableRow i).2

theorem row_eq_ok_iff {w mask mtch : Word} {i j : Instr} : row w mask mtch i = .ok j ↔ w &&& mask = mtch ∧ i = j := by
  unfold row
  split <;> simp [*]

/-- Every row of the table tests the whole opcode. -/
theorem tableRow_mask_opcode (i : Instr) : (tableRow i).1 >>> 24 = 0xFF#32 := by
  cases i <;> simp [tableRow]

theorem opcodeOf_of_meetsRow {w : Word} {i : Instr} (h : MeetsRow w i) : opcodeOf w = opcodeOf (tableRow i).2 := by
  have hb : (w >>> 24).toNat < 2 ^ 8 := by simp; omega
  rw [← h, opcodeOf, opcodeOf, BitVec.ushiftRight_and_distrib, tableRow_mask_opcode, BitVec.toNat_and]
  exact (Nat.and_two_pow_sub_one_of_lt_two_pow hb).symm

theorem meetsRow_of_decode {w : Word} {i : Instr} (h : decode w = .ok i) : MeetsRow w i ∧ i.readFrom w = i := by
  unfold decode at h
  split at h
  case h_26 => nomatch h
  all_goals
    obtain ⟨hrow, rfl⟩ := row_eq_ok_iff.mp h
    exact ⟨hrow, rfl⟩

theorem decode_of_meetsRow {w : Word} {i : Instr} (h : MeetsRow w i) : decode w = .ok (i.readFrom w) := by
  have hrow : decode w = row w (tableRow i).1 (tableRow i).2 (i.readFrom w) := by
    rw [decode, opcodeOf_of_meetsRow h]
    cases i <;> simp [opcodeOf, tableRow, Instr.readFrom]
  rw [hrow, row_eq_ok_iff]
  exact ⟨h, rfl⟩

theorem decode_eq_ok_iff {w : Word} {i : Instr} : decode w = .ok i ↔ MeetsRow w i ∧ i.readFrom w = i :=
  ⟨meetsRow_of_decode, fun ⟨h, hi⟩ => (decode_of_meetsRow h).trans (congrArg _ hi)⟩

/-! ## The one word of a command -/

/-- The encoding of what is read from `w` is the row's match in the bits of its mask, and `w` in the others. -/
theorem encode_readFrom (w : Word) (i : Instr) :
    encode (i.readFrom w) = (tableRow i).2 ||| w &&& ~~~(tableRow i).1 := by
  cases i
  all_goals
    rw [tableRow]
    simp [encode, Instr.readFrom, formatR, formatI, rdOf, raOf, rbOf, rcOf, ofNat_regAt_shiftLeft, ofNat_immOf,
      BitVec.or_assoc, ← BitVec.and_or_distrib_left]

theorem encode_readFrom_of_meetsRow {w : Word} {i : Instr} (h : MeetsRow w i) : encode (i.readFrom w) = w := by
  rw [encode_readFrom, ← h, ← BitVec.and_or_distrib_left, BitVec.or_not_self, BitVec.and_allOnes]

theorem encode_meetsRow {i : Instr} (h : i.wf = true) : MeetsRow (encode i) i := by
  open Laws.TableMatch in
  cases i with
  | nop => exact nop h
  | li rd imm => exact li rd imm h
  | mov rd ra => exact mov rd ra h
  | add rd ra rb => exact add rd ra rb h
  | sub rd ra rb => exact sub rd ra rb h
  | mul rd ra rb => exact mul rd ra rb h
  | mod rd ra rb => exact mod rd ra rb h
  | shl rd ra imm => exact shl rd ra imm h
  | shr rd ra imm => exact shr rd ra imm h
  | parity ra => exact parity ra h
  | cmp ra rb => exact cmp ra rb h
  | gcd rd ra rb => exact gcd rd ra rb h
  | modinv rd ra rb => exact modinv rd ra rb h
  | mulmod rd ra rb rc => exact mulmod rd ra rb rc h
  | powmod rd ra rb rc => exact powmod rd ra rb rc h
  | montset ra => exact montset ra h
  | montmul rd ra rb => exact montmul rd ra rb h
  | tomont rd ra => exact tomont rd ra h
  | frommont rd ra => exact frommont rd ra h
  | barset ra => exact barset ra h
  | barred rd ra => exact barred rd ra h
  | barmul rd ra rb => exact barmul rd ra rb h
  | isprime ra imm => exact isprime ra imm h
  | makeprime rd ra imm => exact makeprime rd ra imm h
  | rand rd ra => exact rand rd ra h

theorem readFrom_encode {i : Instr} (h : i.wf = true) : i.readFrom (encode i) = i := by
  cases i
  case li rd imm | shl rd ra imm | shr rd ra imm | isprime ra imm | makeprime rd ra imm =>
    simp [Instr.readFrom, encode, fields_formatI _ _ _ (of_decide_eq_true h)]
  all_goals simp [Instr.readFrom, encode]

end Sys2Proof

namespace Sys2Proof.Machine

theorem onlyWordOf_encode {i : Instr} (h : i.wf = true) : OnlyWordOf i (encode i) := by
  intro v
  rw [decode_eq_ok_iff]
  constructor
  · rintro ⟨hv, hi⟩
    rw [← hi, encode_readFrom_of_meetsRow hv]
  · rintro rfl
    exact ⟨encode_meetsRow h, readFrom_encode h⟩

end Sys2Proof.Machine
end

section
/-! PROOFS. The data movement commands (40_data_movement.md R100 to R102): what each of the three does, then the statement. -/

namespace Sys2Proof.Machine

theorem exec_nop (s : State) : exec .nop s = .next s.finish := rfl

theorem exec_li (rd : Reg) (imm : Nat) (s : State) : exec (.li rd imm) s = .next (s.setReg rd imm).finish := rfl

theorem exec_mov (rd ra : Reg) (s : State) : exec (.mov rd ra) s = .next (s.setReg rd (s.reg ra)).finish := rfl

/-- Settles O33: each command is well-formed, so its encoding is its one word, and each ends in the completion of its write. -/
theorem dataMovementCommands : Obligations.DataMovementCommands := by
  intro s rd ra imm himm
  refine ⟨⟨?nopWord, exec_nop s⟩, ⟨?liWord, exec_li rd imm s⟩, ⟨?movWord, exec_mov rd ra s⟩⟩
  case nopWord => exact onlyWordOf_encode (i := .nop) rfl
  case liWord => exact onlyWordOf_encode (i := .li rd imm) (decide_eq_true himm)
  case movWord => exact onlyWordOf_encode (i := .mov rd ra) rfl

end Sys2Proof.Machine
end

section
/-! PROOFS. The exact integer arithmetic commands (41_integer_arithmetic.md R110 to R118): what the engine's step of each is, then
the statements. -/

namespace Sys2Proof.Machine

section
variable (s : State) (rd ra rb : Reg) (imm : Nat)

/-! ## What each command does -/

theorem exec_add : exec (.add rd ra rb) s = writeExact rd (s.reg ra + s.reg rb) s := rfl

theorem exec_mul : exec (.mul rd ra rb) s = writeExact rd (s.reg ra * s.reg rb) s := rfl

theorem exec_shl : exec (.shl rd ra imm) s = writeExact rd (s.reg ra * 2 ^ imm) s := rfl

theorem exec_sub_of_le {s : State} {ra rb : Reg} (h : s.reg rb ≤ s.reg ra) :
    exec (.sub rd ra rb) s = .next (s.setReg rd (s.reg ra - s.reg rb)).finish :=
  if_neg (Nat.not_lt.mpr h)

theorem exec_sub_of_lt {s : State} {ra rb : Reg} (h : s.reg ra < s.reg rb) :
    exec (.sub rd ra rb) s = .next (s.raise .negative) :=
  if_pos h

theorem exec_mod : exec (.mod rd ra rb) s =
    withModulus (s.reg rb) s fun s => complete (s.setReg rd (s.reg ra % s.reg rb)) := rfl

theorem exec_shr : exec (.shr rd ra imm) s = .next (s.setReg rd (s.reg ra / 2 ^ imm)).finish := rfl

theorem exec_parity : exec (.parity ra) s = .next (s.setOdd (s.reg ra)).finish := rfl

theorem exec_cmp : exec (.cmp ra rb) s = .next (s.setCompare (s.reg ra) (s.reg rb)).finish := rfl

/-- ODD is written as the parity of the operand, which is its bit 0 (R117). -/
theorem State.setOdd_eq_testBit (a : Nat) : s.setOdd a = { s with flagOdd := a.testBit 0 } := by
  rw [Nat.testBit_zero]
  rfl

end

/-! ## The statements -/

/-- Settles O34: each of the three commands is the exactness law on its result, so the two ends of that law are the two cases. -/
theorem exactSumProductAndShift : Obligations.ExactSumProductAndShift := by
  intro s rd ra rb imm himm
  refine ⟨⟨?addWord, ?mulWord, ?shlWord⟩, ?addFits, ?addOver, ?mulFits, ?mulOver, ?shlFits, ?shlOver⟩
  case addWord => exact onlyWordOf_encode (i := .add rd ra rb) rfl
  case mulWord => exact onlyWordOf_encode (i := .mul rd ra rb) rfl
  case shlWord => exact onlyWordOf_encode (i := .shl rd ra imm) (decide_eq_true himm)
  case addFits => exact fun h => (exec_add s rd ra rb).trans (writeExact_fits rd _ s h)
  case addOver => exact fun h => (exec_add s rd ra rb).trans (writeExact_overflows rd _ s h)
  case mulFits => exact fun h => (exec_mul s rd ra rb).trans (writeExact_fits rd _ s h)
  case mulOver => exact fun h => (exec_mul s rd ra rb).trans (writeExact_overflows rd _ s h)
  case shlFits => exact fun h => (exec_shl s rd ra imm).trans (writeExact_fits rd _ s h)
  case shlOver => exact fun h => (exec_shl s rd ra imm).trans (writeExact_overflows rd _ s h)

/-- Settles O35: the comparison of the operands picks one of the two ends of SUB. -/
theorem exactDifferenceOrNegative : Obligations.ExactDifferenceOrNegative := by
  intro s rd ra rb
  refine ⟨?word, ?difference, ?negative⟩
  case word => exact onlyWordOf_encode (i := .sub rd ra rb) rfl
  case difference => exact exec_sub_of_le rd
  case negative => exact exec_sub_of_lt rd

/-- Settles O36: the residue is the remainder of the division of `x[ra]` by `x[rb]`, with its quotient as `q`. -/
theorem leastResidueOrZeroModulus : Obligations.LeastResidueOrZeroModulus := by
  intro s rd ra rb
  refine ⟨?word, ?residue, ?zeroMod⟩
  case word => exact onlyWordOf_encode (i := .mod rd ra rb) rfl
  case residue =>
    intro h
    have below : s.x[ra] % s.x[rb] < s.x[rb] := Nat.mod_lt _ (Nat.pos_of_ne_zero h)
    have division : s.x[ra] = s.x[ra] / s.x[rb] * s.x[rb] + s.x[ra] % s.x[rb] := (Nat.div_add_mod' _ _).symm
    exact ⟨_, _, below, division, (exec_mod s rd ra rb).trans (withModulus_pos s _ h)⟩
  case zeroMod =>
    intro h
    rw [exec_mod, show s.reg rb = 0 from h, withModulus_zero]
    rfl

/-- Settles O37: the quotient by `2^imm` is the shift, whose bit k is bit `imm + k` of the operand. -/
theorem logicalShiftRight : Obligations.LogicalShiftRight := by
  intro s rd ra imm himm
  refine ⟨?word, s.x[ra] / 2 ^ imm, ?bits, ?zero, rfl, exec_shr s rd ra imm⟩
  case word => exact onlyWordOf_encode (i := .shr rd ra imm) (decide_eq_true himm)
  case bits =>
    intro k
    rw [Nat.testBit_div_two_pow, Nat.add_comm]
  case zero => exact Nat.div_eq_of_lt

/-- Settles O38: ODD is bit 0 by its parity; a number below another is not equal to it, so EQ and LT exclude each other. -/
theorem parityAndComparisonFlags : Obligations.ParityAndComparisonFlags := by
  intro s ra rb
  refine ⟨?parityWord, ?cmpWord, ?odd, decide (s.x[ra] = s.x[rb]), decide (s.x[ra] < s.x[rb]), decide_eq_true_iff,
    decide_eq_true_iff, ?exclusive, exec_cmp s ra rb⟩
  case parityWord => exact onlyWordOf_encode (i := .parity ra) rfl
  case cmpWord => exact onlyWordOf_encode (i := .cmp ra rb) rfl
  case odd =>
    rw [exec_parity, State.setOdd_eq_testBit]
    rfl
  case exclusive =>
    rintro ⟨heq, hlt⟩
    exact (of_decide_eq_true hlt).ne (of_decide_eq_true heq)

end Sys2Proof.Machine
end

section
/-! PROOFS. The Euclid unit (42_gcd_modinv.md R130 to R134): both loops run the same remainders, so enough fuel brings them to the
greatest common divisor; the second coefficient of the extended loop is an inverse by a congruence that every round keeps. -/

namespace Sys2Proof.Machine

/-! ## The loops -/

/-- A round takes `b` to a remainder below `b`, so a bound on `b` is fuel enough. -/
theorem gcdLoop_eq_gcd {f b : Nat} (a : Nat) (h : b ≤ f) : gcdLoop f a b = Nat.gcd a b := by
  induction f generalizing a b with
  | zero =>
    obtain rfl : b = 0 := Nat.le_zero.mp h
    exact (Nat.gcd_zero_right a).symm
  | succ f ih =>
    rw [gcdLoop]
    split
    case isTrue hb => rw [hb, Nat.gcd_zero_right]
    case isFalse hb =>
      have hlt : a % b < b := Nat.mod_lt a (Nat.pos_of_ne_zero hb)
      rw [ih b (by omega), Nat.gcd_comm b, ← Nat.gcd_rec, Nat.gcd_comm]

theorem euclidGcd_eq_gcd (a b : Nat) : euclidGcd a b = Nat.gcd a b := gcdLoop_eq_gcd a le_rfl

/-- The extended loop runs the remainders of the plain one. -/
theorem bezoutLoop_fst (f oldR r : Nat) (oldT t : Int) : (bezoutLoop f oldR r oldT t).1 = gcdLoop f oldR r := by
  induction f generalizing oldR r oldT t with
  | zero => rfl
  | succ f ih =>
    have hmod : oldR - oldR / r * r = oldR % r := Nat.sub_eq_of_eq_add' (Nat.div_add_mod' oldR r).symm
    rw [bezoutLoop, gcdLoop, hmod]
    split
    case isTrue => rfl
    case isFalse => exact ih _ _ _ _

/-- Each remainder is congruent to `a` times its coefficient, and the loop keeps that. -/
theorem bezoutLoop_modEq {a n oldT t : Int} {f oldR r : Nat} (hold : oldR ≡ a * oldT [ZMOD n]) (hr : r ≡ a * t [ZMOD n]) :
    (bezoutLoop f oldR r oldT t).1 ≡ a * (bezoutLoop f oldR r oldT t).2 [ZMOD n] := by
  induction f generalizing oldR r oldT t with
  | zero => exact hold
  | succ f ih =>
    rw [bezoutLoop]
    split
    case isTrue => exact hold
    case isFalse =>
      refine ih hr ?_
      have hround : (oldR : Int) - (oldR / r : Nat) * r ≡ a * oldT - (oldR / r : Nat) * (a * t) [ZMOD n] :=
        hold.sub (hr.mul_left _)
      rw [Nat.cast_sub (Nat.div_mul_le_self oldR r), Nat.cast_mul, mul_sub, mul_left_comm]
      exact hround

/-! ## The modular inverse -/

theorem bezoutLoop_gcd (a n : Nat) : (bezoutLoop a n a 0 1).1 = Nat.gcd a n := by
  rw [bezoutLoop_fst, gcdLoop_eq_gcd n le_rfl, Nat.gcd_comm]

theorem bezoutLoop_start_modEq (a n : Nat) : (bezoutLoop a n a 0 1).1 ≡ a * (bezoutLoop a n a 0 1).2 [ZMOD n] := by
  refine bezoutLoop_modEq ?modulus ?operand
  case modulus => simp [Int.ModEq]
  case operand => rw [mul_one]

theorem modInverse_eq_none {a n : Nat} (h : 1 < Nat.gcd a n) : modInverse a n = none := by
  rw [← bezoutLoop_gcd] at h
  exact if_pos h

theorem modInverse_eq_some {a n : Nat} (hn : n ≠ 0) (h : Nat.gcd a n = 1) :
    ∃ i, i < n ∧ a * i % n = 1 % n ∧ modInverse a n = some i := by
  rw [← bezoutLoop_gcd] at h
  set c := (bezoutLoop a n a 0 1).2
  have hpos : (0 : Int) < n := by omega
  have hi : ((c % n).toNat : Int) = c % n := Int.toNat_of_nonneg (Int.emod_nonneg c hpos.ne')
  refine ⟨(c % n).toNat, ?below, ?inverse, if_neg h.not_gt⟩
  case below =>
    have hlt : c % n < n := Int.emod_lt_of_pos c hpos
    omega
  case inverse =>
    have hbezout : (1 : Int) ≡ a * c [ZMOD n] := by
      have hloop := bezoutLoop_start_modEq a n
      rwa [h] at hloop
    have hreduced : ((a * (c % n).toNat : Nat) : Int) ≡ (1 : Nat) [ZMOD n] := by
      rw [Nat.cast_mul, hi]
      exact ((Int.mod_modEq c n).mul_left a).trans hbezout.symm
    exact Int.natCast_modEq_iff.mp hreduced

/-! ## What each command does -/

section
variable {s : State} (rd : Reg) {ra rb : Reg}

theorem exec_gcd (s : State) (ra rb : Reg) :
    exec (.gcd rd ra rb) s = .next (s.setReg rd (Nat.gcd (s.reg ra) (s.reg rb))).finish := by
  rw [← euclidGcd_eq_gcd]
  rfl

theorem exec_modinv (s : State) (ra rb : Reg) : exec (.modinv rd ra rb) s = execModinv rd ra rb s := rfl

theorem exec_modinv_of_zero (ra : Reg) (h : s.reg rb = 0) : exec (.modinv rd ra rb) s = .next (s.raise .zeroMod) :=
  if_pos h

theorem exec_modinv_of_none (h : s.reg rb ≠ 0) (hinv : modInverse (s.reg ra) (s.reg rb) = none) :
    exec (.modinv rd ra rb) s = .next (s.setNone true).finish := by
  rw [exec_modinv, execModinv, withModulus_pos s _ h, hinv]
  rfl

theorem exec_modinv_of_some {i : Nat} (h : s.reg rb ≠ 0) (hinv : modInverse (s.reg ra) (s.reg rb) = some i) :
    exec (.modinv rd ra rb) s = .next ((s.setNone false).setReg rd i).finish := by
  rw [exec_modinv, execModinv, withModulus_pos s _ h, hinv]
  rfl

end

/-! ## The statements -/

/-- Settles O39: the fuel of the loop is its second number, which is enough for every pair. -/
theorem gcdIsTheGreatestCommonDivisor : Obligations.GcdIsTheGreatestCommonDivisor := by
  intro s rd ra rb
  exact ⟨onlyWordOf_encode (i := .gcd rd ra rb) rfl, exec_gcd rd s ra rb⟩

/-- Settles O40: the three cases of the modulus and the greatest common divisor are the three ends of MODINV. -/
theorem modinvWritesTheInverseOrNone : Obligations.ModinvWritesTheInverseOrNone := by
  intro s rd ra rb
  refine ⟨?word, ?zeroMod, ?noInverse, ?inverse⟩
  case word => exact onlyWordOf_encode (i := .modinv rd ra rb) rfl
  case zeroMod => exact exec_modinv_of_zero rd ra
  case noInverse => exact fun h hgcd => exec_modinv_of_none rd h (modInverse_eq_none hgcd)
  case inverse =>
    intro h hgcd
    obtain ⟨i, hlt, hmul, hinv⟩ := modInverse_eq_some h hgcd
    exact ⟨i, hlt, hmul, exec_modinv_of_some rd h hinv⟩

end Sys2Proof.Machine
end

section
/-! PROOFS. The Barrett engine (43_barrett.md R141 to R145): the size of its constant, the error of its estimate over any
splitting of the input range `2^(2k)` into two factors, the two subtractions that mend it, then the three commands. -/

namespace Sys2Proof.Machine

/-! ## The constant (R141) -/

theorem two_pow_two_mul_eq {k : Nat} (hk : 1 ≤ k) : 2 ^ (2 * k) = 2 ^ (k - 1) * 2 ^ (k + 1) := by
  rw [← pow_add]
  congr 1
  omega

section
variable {n k : Nat}

theorem two_pow_lt_barrettConstant (hn : 0 < n) (hhi : n < 2 ^ k) : 2 ^ k < 2 ^ (2 * k) / n := by
  rw [Nat.lt_iff_add_one_le, Nat.le_div_iff_mul_le hn, two_mul, pow_add]
  calc (2 ^ k + 1) * n = 2 ^ k * n + n := by ring
    _ ≤ 2 ^ k * n + 2 ^ k := Nat.add_le_add_left hhi.le _
    _ = 2 ^ k * (n + 1) := by ring
    _ ≤ 2 ^ k * 2 ^ k := Nat.mul_le_mul_left _ hhi

theorem barrettConstant_le_two_pow (hk : 1 ≤ k) (hlo : 2 ^ (k - 1) ≤ n) : 2 ^ (2 * k) / n ≤ 2 ^ (k + 1) := by
  rw [two_pow_two_mul_eq hk]
  exact Nat.div_le_of_le_mul (Nat.mul_le_mul_right _ hlo)

theorem barrettConstant_eq_two_pow_iff (hk : 1 ≤ k) (hlo : 2 ^ (k - 1) ≤ n) :
    2 ^ (2 * k) / n = 2 ^ (k + 1) ↔ n = 2 ^ (k - 1) := by
  rw [two_pow_two_mul_eq hk]
  constructor
  · intro hmu
    have hn : 0 < n := (Nat.two_pow_pos _).trans_le hlo
    have hmul : 2 ^ (k + 1) * n ≤ 2 ^ (k - 1) * 2 ^ (k + 1) := (Nat.le_div_iff_mul_le hn).mp hmu.ge
    rw [mul_comm (2 ^ (k - 1))] at hmul
    exact le_antisymm (Nat.le_of_mul_le_mul_left hmul (Nat.two_pow_pos _)) hlo
  · rintro rfl
    exact Nat.mul_div_cancel_left _ (Nat.two_pow_pos _)

end

/-! ## The estimate (R143) -/

section
variable {a b n x : Nat}

/-- The quotient estimate of R143: `x` is cut by `a`, multiplied by the constant of the range `a * b`, and cut by `b`. -/
def barrettEstimate (a b n x : Nat) : Nat := x / a * (a * b / n) / b

/-- Every division in the estimate rounds down. -/
theorem barrettEstimate_le_div (ha : 0 < a) (hb : 0 < b) (hn : 0 < n) : barrettEstimate a b n x ≤ x / n := by
  rw [Nat.le_div_iff_mul_le hn]
  have hq1 : x / a * a ≤ x := Nat.div_mul_le_self x a
  have hmu : a * b / n * n ≤ a * b := Nat.div_mul_le_self _ n
  have hq3 : barrettEstimate a b n x * b ≤ x / a * (a * b / n) := Nat.div_mul_le_self _ b
  refine Nat.le_of_mul_le_mul_right ?_ (Nat.mul_pos ha hb)
  calc barrettEstimate a b n x * n * (a * b) = barrettEstimate a b n x * b * (n * a) := by ring
    _ ≤ x / a * (a * b / n) * (n * a) := Nat.mul_le_mul_right _ hq3
    _ = x / a * a * (a * b / n * n) := by ring
    _ ≤ x * (a * b) := Nat.mul_le_mul hq1 hmu

/-- Each rounding keeps the estimate short by less than one: that of the cut by `b` always, that of the constant as `x` is below
`a * b`, that of the cut by `a` as `a` is at most `n`. -/
theorem lt_barrettEstimate_add_three_mul (han : a ≤ n) (hx : x < a * b) : x < (barrettEstimate a b n x + 3) * n := by
  have hab : 0 < a * b := Nat.zero_lt_of_lt hx
  have ha : 0 < a := Nat.pos_of_mul_pos_right hab
  have hb : 0 < b := Nat.pos_of_mul_pos_left hab
  have hn : 0 < n := ha.trans_le han
  set mu := a * b / n
  set q3 := barrettEstimate a b n x
  have hq1 : x < a * (x / a + 1) := Nat.lt_mul_div_succ x ha
  have hmu : a * b < n * (mu + 1) := Nat.lt_mul_div_succ _ hn
  have hq3 : x / a * mu < b * (q3 + 1) := Nat.lt_mul_div_succ _ hb
  have hamu : a * mu ≤ a * b := (Nat.mul_le_mul_right mu han).trans (Nat.mul_div_le _ n)
  have hxmu : x * mu ≤ a * b * (q3 + 2) := by
    calc x * mu ≤ a * (x / a + 1) * mu := Nat.mul_le_mul_right mu hq1.le
      _ = a * (x / a * mu) + a * mu := by ring
      _ ≤ a * (b * (q3 + 1)) + a * b := Nat.add_le_add (Nat.mul_le_mul_left a hq3.le) hamu
      _ = a * b * (q3 + 2) := by ring
  refine Nat.lt_of_mul_lt_mul_right (a := a * b) ?_
  calc x * (a * b) ≤ x * (n * (mu + 1)) := Nat.mul_le_mul_left x hmu.le
    _ = n * (x * mu + x) := by ring
    _ < n * (a * b * (q3 + 2) + a * b) := Nat.mul_lt_mul_of_pos_left (Nat.add_lt_add_of_le_of_lt hxmu hx) hn
    _ = (q3 + 3) * n * (a * b) := by ring

theorem div_le_barrettEstimate_add_two (han : a ≤ n) (hx : x < a * b) : x / n ≤ barrettEstimate a b n x + 2 :=
  Nat.le_of_lt_add_one (Nat.div_lt_of_lt_mul (mul_comm n _ ▸ lt_barrettEstimate_add_three_mul han hx))

end

/-! ## The correction (R143) -/

theorem subOnce_mod (r n : Nat) : subOnce r n % n = r % n := by
  unfold subOnce
  split
  case isTrue h => exact (Nat.mod_eq_sub_mod h).symm
  case isFalse => rfl

theorem subOnce_lt {r n m : Nat} (hnm : n ≤ m) (hr : r < m + n) : subOnce r n < m := by
  unfold subOnce
  split <;> omega

theorem subOnce_subOnce_eq_mod {r n : Nat} (h : r < 3 * n) : subOnce (subOnce r n) n = r % n := by
  have hlt : subOnce (subOnce r n) n < n := subOnce_lt le_rfl (subOnce_lt (by omega) (by omega))
  rw [← Nat.mod_eq_of_lt hlt, subOnce_mod, subOnce_mod]

theorem barReduce_eq_subOnce (x n k : Nat) :
    barReduce x n k (2 ^ (k - 1) * 2 ^ (k + 1) / n) =
      subOnce (subOnce (x - barrettEstimate (2 ^ (k - 1)) (2 ^ (k + 1)) n x * n) n) n := rfl

/-- What the estimate leaves is below `3 * n`, so two subtractions reduce it. -/
theorem barReduce_eq_mod {n k x : Nat} (hk : 1 ≤ k) (hlo : 2 ^ (k - 1) ≤ n) (hx : x < 2 ^ (2 * k)) :
    barReduce x n k (2 ^ (2 * k) / n) = x % n := by
  have hn : 0 < n := (Nat.two_pow_pos _).trans_le hlo
  rw [two_pow_two_mul_eq hk] at hx ⊢
  rw [barReduce_eq_subOnce]
  set q3 := barrettEstimate (2 ^ (k - 1)) (2 ^ (k + 1)) n x
  have hle : n * q3 ≤ x :=
    (Nat.mul_le_mul_left n (barrettEstimate_le_div (Nat.two_pow_pos _) (Nat.two_pow_pos _) hn)).trans (Nat.mul_div_le x n)
  have hlt : x < (q3 + 3) * n := lt_barrettEstimate_add_three_mul hlo hx
  rw [add_mul, mul_comm q3] at hlt
  rw [mul_comm q3, subOnce_subOnce_eq_mod (by omega), Nat.sub_mul_mod hle]

/-! ## What each command does (R142, R144, R145) -/

section
variable {s : State} (rd : Reg) {ra rb : Reg}

theorem exec_barset_of_zero (h : s.reg ra = 0) : exec (.barset ra) s = .next (s.raise .zeroMod) := if_pos h

theorem exec_barset_of_ne_zero (h : s.reg ra ≠ 0) :
    exec (.barset ra) s = .next (State.finish { s with
      bvalid := true, bn := s.reg ra, bk := bitlen (s.reg ra),
      bmu := 2 ^ (2 * bitlen (s.reg ra)) / s.reg ra }) :=
  if_neg h

theorem exec_barred_of_invalid (ra : Reg) (hv : s.bvalid = false) :
    exec (.barred rd ra) s = .next (s.raise .noCtx) := if_pos hv

theorem exec_barmul_of_invalid (ra rb : Reg) (hv : s.bvalid = false) :
    exec (.barmul rd ra rb) s = .next (s.raise .noCtx) := if_pos hv

theorem exec_barred_of_valid (ra : Reg) (hv : s.bvalid = true) :
    exec (.barred rd ra) s =
      if 2 ^ (2 * s.bk) ≤ s.reg ra then raiseError .range s
      else complete (s.setReg rd (barReduce (s.reg ra) s.bn s.bk s.bmu)) :=
  if_neg (ne_false_of_eq_true hv)

theorem exec_barmul_of_valid (ra rb : Reg) (hv : s.bvalid = true) :
    exec (.barmul rd ra rb) s =
      if s.bn ≤ s.reg ra ∨ s.bn ≤ s.reg rb then raiseError .range s
      else complete (s.setReg rd (barReduce (s.reg ra * s.reg rb) s.bn s.bk s.bmu)) :=
  if_neg (ne_false_of_eq_true hv)

end

/-! ## A valid context reduces exactly (R32) -/

theorem BarCtx.reduce_eq_mod {s : State} {x : Nat} (hs : BarCtx s) (hv : s.bvalid = true) (hx : x < 2 ^ (2 * s.bk)) :
    barReduce x s.bn s.bk s.bmu = x % s.bn := by
  obtain ⟨-, -, -, hvalid, -⟩ := hs
  obtain ⟨hpos, hlo, hhi, hmu⟩ := hvalid hv
  have hk : 1 ≤ s.bk := Nat.pos_of_ne_zero fun h0 => by
    rw [h0] at hhi
    omega
  rw [hmu]
  exact barReduce_eq_mod hk hlo hx

/-- A product of two reduced numbers is in the unit's input range. -/
theorem BarCtx.mul_lt_range {s : State} {x y : Nat} (hs : BarCtx s) (hv : s.bvalid = true) (hx : x < s.bn) (hy : y < s.bn) :
    x * y < 2 ^ (2 * s.bk) := by
  obtain ⟨-, -, -, hvalid, -⟩ := hs
  obtain ⟨-, -, hhi, -⟩ := hvalid hv
  rw [two_mul, pow_add]
  exact Nat.mul_lt_mul'' (hx.trans hhi) (hy.trans hhi)

/-! ## The statements -/

/-- Settles O41: `k` is the bit length of the operand, and the constant's bounds follow from the bounds that fix it. -/
theorem barsetComputesTheContext : Obligations.BarsetComputesTheContext := by
  intro s ra
  refine ⟨?word, ?zeroMod, ?context⟩
  case word => exact onlyWordOf_encode (i := .barset ra) rfl
  case zeroMod => exact exec_barset_of_zero
  case context =>
    intro h
    have hk : 1 ≤ bitlen s.x[ra] := bitlen_pos h
    have hlo : 2 ^ (bitlen s.x[ra] - 1) ≤ s.x[ra] := two_pow_le_of_bitlen h
    have hhi : s.x[ra] < 2 ^ bitlen s.x[ra] := lt_two_pow_bitlen _
    exact ⟨bitlen s.x[ra], _, hk, hlo, hhi, rfl, two_pow_lt_barrettConstant (Nat.pos_of_ne_zero h) hhi,
      barrettConstant_le_two_pow hk hlo, barrettConstant_eq_two_pow_iff hk hlo, exec_barset_of_ne_zero h⟩

/-- Settles O42: the estimate is the one over the range `2^(k-1) * 2^(k+1)`, whose first factor is at most the modulus. -/
theorem barrettReductionIsExact : Obligations.BarrettReductionIsExact := by
  intro n x k mu hn hsetup hx
  simp only [barSetup, Prod.mk.injEq, true_and] at hsetup
  obtain ⟨rfl, rfl⟩ := hsetup
  have hk : 1 ≤ bitlen n := bitlen_pos (Nat.ne_of_gt hn)
  have hlo : 2 ^ (bitlen n - 1) ≤ n := two_pow_le_of_bitlen (Nat.ne_of_gt hn)
  refine ⟨?estimate, barReduce_eq_mod hk hlo hx⟩
  case estimate =>
    rw [two_pow_two_mul_eq hk] at hx ⊢
    exact ⟨barrettEstimate_le_div (Nat.two_pow_pos _) (Nat.two_pow_pos _) hn, div_le_barrettEstimate_add_two hlo hx⟩

/-- Settles O43: the validity bit and the range test pick the end of each command, and a valid context reduces exactly. -/
theorem barrettCommandsReduceExactly : Obligations.BarrettCommandsReduceExactly := by
  intro s rd ra rb hs
  refine ⟨⟨?barredWord, ?barmulWord⟩, fun hv => ⟨exec_barred_of_invalid rd ra hv, exec_barmul_of_invalid rd ra rb hv⟩,
    fun hv => ⟨?barredRange, ?barredResidue, ?barmulRange, ?barmulResidue⟩⟩
  case barredWord => exact onlyWordOf_encode (i := .barred rd ra) rfl
  case barmulWord => exact onlyWordOf_encode (i := .barmul rd ra rb) rfl
  case barredRange => exact fun h => (exec_barred_of_valid rd ra hv).trans (if_pos h)
  case barredResidue =>
    intro h
    rw [← hs.reduce_eq_mod hv h]
    exact (exec_barred_of_valid rd ra hv).trans (if_neg (Nat.not_le.mpr h))
  case barmulRange => exact fun h => (exec_barmul_of_valid rd ra rb hv).trans (if_pos h)
  case barmulResidue =>
    intro ha hb
    rw [← hs.reduce_eq_mod hv (hs.mul_lt_range hv ha hb)]
    exact (exec_barmul_of_valid rd ra rb hv).trans (if_neg (not_or.mpr ⟨Nat.not_le.mpr ha, Nat.not_le.mpr hb⟩))

end Sys2Proof.Machine
end

section
/-! PROOFS. The Montgomery multiplier (44_montgomery.md R151 to R158): one exact division by a radix, of which the reduction makes
one by `2^W` and the limb-serial multiplication one by `2^32` per round; the residue it leaves is fixed by its multiple by the
radix, since the modulus is odd; then the four commands. -/

namespace Sys2Proof.Machine

/-! ## The constant (R151) -/

theorem gcd_two_pow_of_odd {n : Nat} (hn : n % 2 = 1) (w : Nat) : Nat.gcd n (2 ^ w) = 1 :=
  (Nat.odd_iff.mpr hn).coprime_two_right.pow_right w

theorem dvd_negInverse_mul_add_one {n m : Nat} (hm : m ≠ 0) (h : Nat.gcd n m = 1) : m ∣ negInverse n m * n + 1 := by
  obtain ⟨i, hlt, hmul, hinv⟩ := modInverse_eq_some hm h
  have hone : n * i ≡ 1 [MOD m] := hmul
  rw [negInverse, hinv, ← Nat.modEq_zero_iff_dvd]
  calc (m - i) % m * n + 1 ≡ (m - i) * n + n * i [MOD m] := ((Nat.mod_modEq _ m).mul_right n).add hone.symm
    _ = m * n := by rw [mul_comm n, ← add_mul, Nat.sub_add_cancel hlt.le]
    _ ≡ 0 [MOD m] := Nat.modEq_zero_iff_dvd.mpr (dvd_mul_right m n)

theorem dvd_negInverse_two_pow {n : Nat} (hn : n % 2 = 1) (w : Nat) : 2 ^ w ∣ negInverse n (2 ^ w) * n + 1 :=
  dvd_negInverse_mul_add_one (Nat.two_pow_pos w).ne' (gcd_two_pow_of_odd hn w)

/-- The register MNP holds the whole constant for the radix `2^32`. -/
theorem dvd_montSetup_np {n : Nat} (hn : n % 2 = 1) (w : Nat) : 2 ^ 32 ∣ (montSetup w n).2.1.toNat * n + 1 := by
  have hnp : (montSetup w n).2.1.toNat ≡ negInverse n (2 ^ 32) [MOD 2 ^ 32] := by
    rw [montSetup, BitVec.toNat_ofNat]
    exact Nat.mod_modEq _ _
  exact ((hnp.mul_right n).add_right 1).dvd_iff dvd_rfl |>.mpr (dvd_negInverse_two_pow hn 32)

/-! ## The division by the radix (R153, R157) -/

/-- `(t + m * n) / R`, where `m` is the multiplier that makes the division by the radix `R` exact. -/
def montDivide (R np n t : Nat) : Nat := (t + t % R * np % R * n) / R

section
variable {R np n t : Nat}

theorem dvd_add_multiplier_mul (hnp : R ∣ np * n + 1) (t : Nat) : R ∣ t + t % R * np % R * n := by
  have hm : t % R * np % R ≡ t * np [MOD R] := (Nat.mod_modEq _ R).trans ((Nat.mod_modEq t R).mul_right np)
  rw [← Nat.modEq_zero_iff_dvd]
  calc t + t % R * np % R * n ≡ t + t * np * n [MOD R] := (hm.mul_right n).add_left t
    _ = t * (np * n + 1) := by ring
    _ ≡ 0 [MOD R] := Nat.modEq_zero_iff_dvd.mpr (dvd_mul_of_dvd_right hnp t)

theorem montDivide_mul_modEq (hnp : R ∣ np * n + 1) (t : Nat) : montDivide R np n t * R ≡ t [MOD n] := by
  rw [montDivide, Nat.div_mul_cancel (dvd_add_multiplier_mul hnp t)]
  exact Nat.add_mul_mod_self_right t _ n

/-- The multiplier is below the radix, so the quotient is in reach of one subtraction, even for a `t` one modulus above the
input range of R153. -/
theorem montDivide_lt (hR : 0 < R) (ht : t < n * (R + 1)) : montDivide R np n t < n + n := by
  have hm : t % R * np % R + 1 ≤ R := Nat.mod_lt _ hR
  rw [montDivide, Nat.div_lt_iff_lt_mul hR]
  have hmn : t % R * np % R * n + n ≤ R * n := by
    calc t % R * np % R * n + n = (t % R * np % R + 1) * n := by ring
      _ ≤ R * n := Nat.mul_le_mul_right n hm
  calc t + t % R * np % R * n < n * (R + 1) + t % R * np % R * n := Nat.add_lt_add_right ht _
    _ = n * R + (t % R * np % R * n + n) := by ring
    _ ≤ n * R + R * n := Nat.add_le_add_left hmn _
    _ = (n + n) * R := by ring

end

/-! ## The reduction (R153) -/

section
variable {w n t : Nat}

theorem redc_eq_subOnce (w t n : Nat) : redc w t n = subOnce (montDivide (2 ^ w) (negInverse n (2 ^ w)) n t) n := rfl

theorem redc_mul_modEq (hn : n % 2 = 1) (w t : Nat) : redc w t n * 2 ^ w ≡ t [MOD n] := by
  have hsub : redc w t n ≡ montDivide (2 ^ w) (negInverse n (2 ^ w)) n t [MOD n] := subOnce_mod _ n
  exact (hsub.mul_right _).trans (montDivide_mul_modEq (dvd_negInverse_two_pow hn w) t)

theorem redc_lt (ht : t < n * 2 ^ w) : redc w t n < n := by
  have hrange : t < n * (2 ^ w + 1) := ht.trans_le (Nat.mul_le_mul_left n (Nat.le_succ _))
  exact subOnce_lt le_rfl (montDivide_lt (Nat.two_pow_pos w) hrange)

theorem modEq_of_mul_two_pow_modEq {r c : Nat} (hn : n % 2 = 1) (h : r * 2 ^ w ≡ c * 2 ^ w [MOD n]) : r ≡ c [MOD n] :=
  h.cancel_right_of_coprime (gcd_two_pow_of_odd hn w)

/-- The residue is the only one with its multiple by the radix. -/
theorem redc_eq_mod {c : Nat} (hn : n % 2 = 1) (ht : t < n * 2 ^ w) (h : c * 2 ^ w ≡ t [MOD n]) : redc w t n = c % n := by
  have hmod : redc w t n ≡ c [MOD n] := modEq_of_mul_two_pow_modEq hn ((redc_mul_modEq hn w t).trans h.symm)
  rw [← Nat.mod_eq_of_lt (redc_lt ht)]
  exact hmod

theorem lt_mul_two_pow_of_lt (ht : t < n) : t < n * 2 ^ w :=
  ht.trans_le (Nat.le_mul_of_pos_right n (Nat.two_pow_pos w))

/-- The product of two residues is in the input range of the reduction. -/
theorem mul_lt_mul_two_pow {a b : Nat} (hlt : n < 2 ^ w) (ha : a < n) (hb : b < n) : a * b < n * 2 ^ w :=
  Nat.mul_lt_mul'' ha (hb.trans hlt)

end

/-! ## Montgomery form (R155, R156, R158) -/

section
variable {w n a b : Nat}

theorem redc_mul_radixSquare (hn : n % 2 = 1) (hlt : n < 2 ^ w) (ha : a < n) :
    redc w (a * (2 ^ (2 * w) % n)) n = a * 2 ^ w % n := by
  have hr2 : 2 ^ (2 * w) % n < n := Nat.mod_lt _ (Nat.zero_lt_of_lt ha)
  refine redc_eq_mod hn (mul_lt_mul_two_pow hlt ha hr2) ?_
  calc a * 2 ^ w * 2 ^ w = a * 2 ^ (2 * w) := by rw [mul_assoc, ← pow_add, ← two_mul]
    _ ≡ a * (2 ^ (2 * w) % n) [MOD n] := (Nat.mod_modEq _ n).symm.mul_left a

theorem redc_mul_two_pow_mod (hn : n % 2 = 1) (c : Nat) : redc w (c * 2 ^ w % n) n = c % n := by
  have hpos : 0 < n := by omega
  exact redc_eq_mod hn (lt_mul_two_pow_of_lt (Nat.mod_lt _ hpos)) (Nat.mod_modEq _ n).symm

theorem montMul_form_left (hn : n % 2 = 1) (hlt : n < 2 ^ w) (a : Nat) (hb : b < n) :
    montMul w (a * 2 ^ w % n) b n = a * b % n := by
  have hA : a * 2 ^ w % n < n := Nat.mod_lt _ (Nat.zero_lt_of_lt hb)
  refine redc_eq_mod hn (mul_lt_mul_two_pow hlt hA hb) ?_
  calc a * b * 2 ^ w = a * 2 ^ w * b := by ring
    _ ≡ a * 2 ^ w % n * b [MOD n] := (Nat.mod_modEq _ n).symm.mul_right b

theorem montMul_comm (w a b n : Nat) : montMul w a b n = montMul w b a n := by
  rw [montMul, montMul, mul_comm]

theorem montMul_form_right (hn : n % 2 = 1) (hlt : n < 2 ^ w) (ha : a < n) (b : Nat) :
    montMul w a (b * 2 ^ w % n) n = a * b % n := by
  rw [montMul_comm, montMul_form_left hn hlt b ha, mul_comm]

/-- The form of a product is the Montgomery product of the forms. -/
theorem montMul_forms (hn : n % 2 = 1) (hlt : n < 2 ^ w) (ha : a < n) (b : Nat) :
    montMul w (a * 2 ^ w % n) (b * 2 ^ w % n) n = a * b * 2 ^ w % n := by
  rw [montMul_form_left hn hlt a (Nat.mod_lt _ (Nat.zero_lt_of_lt ha)), Nat.mul_mod_mod, mul_assoc]

end

/-! ## The limb-serial multiplication (R157) -/

section
variable {n a b : Nat} {np : Word}

theorem div_two_pow_eq_limb_add (b i : Nat) :
    b / 2 ^ (32 * i) = (limb b i).toNat + 2 ^ 32 * (b / 2 ^ (32 * (i + 1))) := by
  rw [limb_toNat, two_pow_limb_succ, mul_comm (2 ^ 32) (2 ^ (32 * i)), ← Nat.div_div_eq_div_mul, Nat.mod_add_div]

theorem montMulSerialLoop_succ (a b n : Nat) (np : Word) (f i t : Nat) :
    montMulSerialLoop a b n np (f + 1) i t =
      montMulSerialLoop a b n np f (i + 1) (montDivide (2 ^ 32) np.toNat n (t + a * (limb b i).toNat)) := rfl

/-- Each round takes one limb of `b` into the accumulator and divides by the limb radix. -/
theorem montMulSerialLoop_modEq (hnp : 2 ^ 32 ∣ np.toNat * n + 1) (a b f i t : Nat) :
    (montMulSerialLoop a b n np f i t + a * (b / 2 ^ (32 * (i + f)))) * 2 ^ (32 * f) ≡ t + a * (b / 2 ^ (32 * i)) [MOD n] := by
  induction f generalizing i t with
  | zero => simp [montMulSerialLoop, Nat.ModEq]
  | succ f ih =>
    set t' := montDivide (2 ^ 32) np.toNat n (t + a * (limb b i).toNat)
    have hround : t' * 2 ^ 32 ≡ t + a * (limb b i).toNat [MOD n] := montDivide_mul_modEq hnp _
    have hrest := (ih (i + 1) t').mul_right (2 ^ 32)
    rw [montMulSerialLoop_succ, two_pow_limb_succ, mul_comm (2 ^ 32) (2 ^ (32 * f)), ← mul_assoc,
      show i + (f + 1) = i + 1 + f by omega]
    calc _ ≡ (t' + a * (b / 2 ^ (32 * (i + 1)))) * 2 ^ 32 [MOD n] := hrest
      _ = t' * 2 ^ 32 + a * (2 ^ 32 * (b / 2 ^ (32 * (i + 1)))) := by ring
      _ ≡ t + a * (limb b i).toNat + a * (2 ^ 32 * (b / 2 ^ (32 * (i + 1)))) [MOD n] := hround.add_right _
      _ = t + a * (b / 2 ^ (32 * i)) := by rw [div_two_pow_eq_limb_add b i]; ring

/-- An accumulator below two moduli stays there, whatever the limb. -/
theorem montMulSerialLoop_lt (ha : a < n) (b : Nat) (np : Word) (f i : Nat) {t : Nat} (ht : t < n + n) :
    montMulSerialLoop a b n np f i t < n + n := by
  induction f generalizing i t with
  | zero => exact ht
  | succ f ih =>
    have hlimb : (limb b i).toNat ≤ 2 ^ 32 - 1 := Nat.le_sub_one_of_lt (limb b i).isLt
    have hprod : a * (limb b i).toNat ≤ n * (2 ^ 32 - 1) := Nat.mul_le_mul ha.le hlimb
    exact ih (i + 1) (montDivide_lt (Nat.two_pow_pos 32) (by omega))

theorem montMulSerial_eq_subOnce (limbs a b n : Nat) (np : Word) :
    montMulSerial limbs a b n np = subOnce (montMulSerialLoop a b n np limbs 0 0) n := rfl

theorem montMulSerial_lt (ha : a < n) (limbs b : Nat) (np : Word) : montMulSerial limbs a b n np < n := by
  have hpos : 0 < n := Nat.zero_lt_of_lt ha
  exact subOnce_lt le_rfl (montMulSerialLoop_lt ha b np limbs 0 (Nat.add_pos_left hpos n))

theorem montMulSerial_mul_modEq {limbs : Nat} (hnp : 2 ^ 32 ∣ np.toNat * n + 1) (a : Nat) (hb : b < 2 ^ (32 * limbs)) :
    montMulSerial limbs a b n np * 2 ^ (32 * limbs) ≡ a * b [MOD n] := by
  have hsub : montMulSerial limbs a b n np ≡ montMulSerialLoop a b n np limbs 0 0 [MOD n] := subOnce_mod _ n
  have hloop := montMulSerialLoop_modEq hnp a b limbs 0 0
  simp only [Nat.zero_add, Nat.div_eq_of_lt hb, Nat.mul_zero, Nat.add_zero, pow_zero, Nat.div_one] at hloop
  exact (hsub.mul_right _).trans hloop

end

/-! ## What each command does (R152, R154 to R156) -/

section
variable {s : State} (rd : Reg) {ra rb : Reg}

theorem exec_montset_of_zero (h : s.reg ra = 0) : exec (.montset ra) s = .next (s.raise .zeroMod) := if_pos h

theorem exec_montset_of_ne_zero (h : s.reg ra ≠ 0) :
    exec (.montset ra) s =
      if s.reg ra % 2 = 0 then raiseError .evenMod s
      else complete { s with
        mvalid := true, mn := s.reg ra, mnp := (montSetup s.width (s.reg ra)).2.1, mr2 := 2 ^ (2 * s.width) % s.reg ra } :=
  if_neg h

theorem exec_montmul_of_invalid (ra rb : Reg) (hv : s.mvalid = false) :
    exec (.montmul rd ra rb) s = .next (s.raise .noCtx) := if_pos hv

theorem exec_tomont_of_invalid (ra : Reg) (hv : s.mvalid = false) :
    exec (.tomont rd ra) s = .next (s.raise .noCtx) := if_pos hv

theorem exec_frommont_of_invalid (ra : Reg) (hv : s.mvalid = false) :
    exec (.frommont rd ra) s = .next (s.raise .noCtx) := if_pos hv

theorem exec_montmul_of_valid (ra rb : Reg) (hv : s.mvalid = true) :
    exec (.montmul rd ra rb) s =
      if s.mn ≤ s.reg ra ∨ s.mn ≤ s.reg rb then raiseError .range s
      else complete (s.setReg rd (montMul s.width (s.reg ra) (s.reg rb) s.mn)) :=
  if_neg (ne_false_of_eq_true hv)

theorem exec_tomont_of_valid (ra : Reg) (hv : s.mvalid = true) :
    exec (.tomont rd ra) s =
      if s.mn ≤ s.reg ra then raiseError .range s
      else complete (s.setReg rd (redc s.width (s.reg ra * s.mr2) s.mn)) :=
  if_neg (ne_false_of_eq_true hv)

theorem exec_frommont_of_valid (ra : Reg) (hv : s.mvalid = true) :
    exec (.frommont rd ra) s =
      if s.mn ≤ s.reg ra then raiseError .range s
      else complete (s.setReg rd (redc s.width (s.reg ra) s.mn)) :=
  if_neg (ne_false_of_eq_true hv)

end

/-! ## The statements -/

/-- Settles O44: the modulus is tested for 0 and then for its parity, and MNP is the constant of the division by `2^32`. -/
theorem montsetComputesTheContext : Obligations.MontsetComputesTheContext := by
  intro s ra
  refine ⟨?word, ?zeroMod, ?evenMod, ?context⟩
  case word => exact onlyWordOf_encode (i := .montset ra) rfl
  case zeroMod => exact exec_montset_of_zero
  case evenMod => exact fun h heven => (exec_montset_of_ne_zero h).trans (if_pos heven)
  case context =>
    intro hodd
    have hne : s.x[ra] ≠ 0 := by omega
    have hdvd : 2 ^ 32 ∣ (montSetup s.width s.x[ra]).2.1.toNat * s.x[ra] + 1 := dvd_montSetup_np hodd s.width
    have hmod : (montSetup s.width s.x[ra]).2.1.toNat * s.x[ra] % 2 ^ 32 = 2 ^ 32 - 1 := by omega
    exact ⟨_, hmod, (exec_montset_of_ne_zero hne).trans (if_neg (Nat.mod_two_ne_zero.mpr hodd))⟩

/-- Settles O45: the division by the radix is exact and one subtraction reduces its quotient; a product of residues is in the
input range. -/
theorem redcDividesByTheRadix : Obligations.RedcDividesByTheRadix := by
  intro w n t a b hn hlt ht ha hb
  exact ⟨redc_lt ht, redc_mul_modEq hn w t, redc_lt (mul_lt_mul_two_pow hlt ha hb), redc_mul_modEq hn w (a * b)⟩

/-- Settles O46: the validity bit and the range test pick the end of each command, and a valid context is an odd modulus with the
constant that makes TOMONT a multiplication by the radix. -/
theorem montgomeryCommandsComputeTheirForms : Obligations.MontgomeryCommandsComputeTheirForms := by
  intro s rd ra rb hs
  obtain ⟨hlt, -, hvalid, -⟩ := hs
  refine ⟨⟨?montmulWord, ?tomontWord, ?frommontWord⟩, ?noCtx, ?rangeA, ?rangeB, ?montmul, ?forms⟩
  case montmulWord => exact onlyWordOf_encode (i := .montmul rd ra rb) rfl
  case tomontWord => exact onlyWordOf_encode (i := .tomont rd ra) rfl
  case frommontWord => exact onlyWordOf_encode (i := .frommont rd ra) rfl
  case noCtx =>
    intro hv
    rw [List.forall_mem_cons, List.forall_mem_cons, List.forall_mem_singleton]
    exact ⟨exec_montmul_of_invalid rd ra rb hv, exec_tomont_of_invalid rd ra hv, exec_frommont_of_invalid rd ra hv⟩
  case rangeA =>
    intro hv h
    rw [List.forall_mem_cons, List.forall_mem_cons, List.forall_mem_singleton]
    exact ⟨(exec_montmul_of_valid rd ra rb hv).trans (if_pos (.inl h)), (exec_tomont_of_valid rd ra hv).trans (if_pos h),
      (exec_frommont_of_valid rd ra hv).trans (if_pos h)⟩
  case rangeB => exact fun hv h => (exec_montmul_of_valid rd ra rb hv).trans (if_pos (.inr h))
  case montmul =>
    intro hv ha hb
    obtain ⟨hodd, -, -⟩ := hvalid hv
    exact ⟨_, redc_lt (mul_lt_mul_two_pow hlt ha hb), redc_mul_modEq hodd s.width _,
      (exec_montmul_of_valid rd ra rb hv).trans (if_neg (not_or.mpr ⟨Nat.not_le.mpr ha, Nat.not_le.mpr hb⟩))⟩
  case forms =>
    intro hv ha
    obtain ⟨hodd, -, hr2⟩ := hvalid hv
    have hform : redc s.width (s.x[ra] * s.mr2) s.mn = s.x[ra] * 2 ^ s.width % s.mn := by
      rw [hr2, redc_mul_radixSquare hodd hlt ha]
    have hback : redc s.width s.x[ra] s.mn * 2 ^ s.width % s.mn = s.x[ra] :=
      Eq.trans (redc_mul_modEq hodd s.width s.x[ra]) (Nat.mod_eq_of_lt ha)
    refine ⟨?tomont, _, redc_lt (lt_mul_two_pow_of_lt ha), hback,
      (exec_frommont_of_valid rd ra hv).trans (if_neg (Nat.not_le.mpr ha))⟩
    case tomont =>
      rw [← hform]
      exact (exec_tomont_of_valid rd ra hv).trans (if_neg (Nat.not_le.mpr ha))

/-- Settles O47: on residues written as their forms, the product of the forms is the form of the product, and a form times a
residue is the product itself. -/
theorem montgomeryRouteIsTheModularProduct : Obligations.MontgomeryRouteIsTheModularProduct := by
  rintro w n r2 a b hn hlt rfl ha hb
  rw [redc_mul_radixSquare hn hlt ha, redc_mul_radixSquare hn hlt hb]
  refine ⟨?route, montMul_form_left hn hlt a hb, montMul_form_right hn hlt ha b⟩
  case route => rw [montMul_forms hn hlt ha b, redc_mul_two_pow_mod hn]

/-- Settles O48: after all limbs the accumulator has the product as its multiple by `2^(32*limbs)`, and the residue with that
multiple is the one of the reduction. -/
theorem serialMontgomeryAgrees : Obligations.SerialMontgomeryAgrees := by
  intro limbs n a b hn hlt ha hb
  have hmul := montMulSerial_mul_modEq (dvd_montSetup_np hn (32 * limbs)) a (hb.trans hlt)
  rw [montMul, redc_eq_mod hn (mul_lt_mul_two_pow hlt ha hb) hmul]
  exact (Nat.mod_eq_of_lt (montMulSerial_lt ha limbs b _)).symm

end Sys2Proof.Machine
end

section
/-! PROOFS. The modular exponentiation pipeline (45_modexp.md R165 to R170): the loop over a product of representatives gives
the representative of the power. The source's loop and the Barrett realisation represent a number by its residue, the Montgomery
realisation by the Montgomery form of its residue. -/

namespace Sys2Proof.Machine

/-! ## The square-and-multiply loop (R168) -/

theorem powLoop_exponent_zero (mulm : Nat → Nat → Nat) (f v p : Nat) : powLoop mulm f v p 0 = v := by
  cases f <;> rfl

theorem powLoop_succ (mulm : Nat → Nat → Nat) (f v p : Nat) {d : Nat} (hd : d ≠ 0) :
    powLoop mulm (f + 1) v p d = powLoop mulm f (if d % 2 = 1 then mulm v p else v) (mulm p p) (d / 2) :=
  if_neg hd

/-- Each round moves the lowest bit of the exponent into the accumulator: `p^d = p^(d % 2) * (p * p)^(d / 2)`. -/
theorem powLoop_represents {mulm : Nat → Nat → Nat} {rep : Nat → Nat} (hmul : ∀ a b, mulm (rep a) (rep b) = rep (a * b))
    (f v p : Nat) {d : Nat} (hd : d < 2 ^ f) : powLoop mulm f (rep v) (rep p) d = rep (v * p ^ d) := by
  induction f generalizing v p d with
  | zero =>
    obtain rfl : d = 0 := by omega
    rw [powLoop_exponent_zero, pow_zero, mul_one]
  | succ f ih =>
    by_cases h0 : d = 0
    case pos => rw [h0, powLoop_exponent_zero, pow_zero, mul_one]
    case neg =>
      have hacc : (if d % 2 = 1 then mulm (rep v) (rep p) else rep v) = rep (v * p ^ (d % 2)) := by
        rcases Nat.mod_two_eq_zero_or_one d with hbit | hbit <;> simp [hbit, hmul]
      have hpow : v * p ^ (d % 2) * (p * p) ^ (d / 2) = v * p ^ d := by
        rw [← pow_two, ← pow_mul, mul_assoc, ← pow_add, Nat.mod_add_div]
      rw [powLoop_succ mulm f _ _ h0, hacc, hmul, ih _ _ (by omega), hpow]

theorem one_mod_mul_mod_pow (base exponent n : Nat) : 1 % n * (base % n) ^ exponent % n = base ^ exponent % n := by
  rw [Nat.mod_mul_mod, one_mul, ← Nat.pow_mod]

/-! ## The source's loop (R168) -/

theorem mulMod_mod (n a b : Nat) : mulMod n (a % n) (b % n) = a * b % n := (Nat.mul_mod a b n).symm

theorem powerMod_eq_pow_mod (base exponent n : Nat) : powerMod base exponent n = base ^ exponent % n := by
  rw [powerMod, powLoop_represents (rep := (· % n)) (mulMod_mod n) _ 1 base (lt_two_pow_bitlen exponent), one_mul]

/-! ## The Montgomery realisation (R169) -/

/-- The Montgomery form of the residue of `a` (R155). -/
def montForm (w n a : Nat) : Nat := a * 2 ^ w % n

section
variable {w n : Nat} (hn : n % 2 = 1) (hlt : n < 2 ^ w)
include hn hlt

theorem montMul_montForm (a b : Nat) : montMul w (montForm w n a) (montForm w n b) n = montForm w n (a * b) := by
  have ha : a % n < n := Nat.mod_lt a (by omega)
  have hform : montForm w n (a % n) = montForm w n a := Nat.mod_mul_mod a (2 ^ w) n
  calc montMul w (montForm w n a) (montForm w n b) n = a % n * b * 2 ^ w % n := by
        rw [← hform]
        exact montMul_forms hn hlt ha b
    _ = montForm w n (a * b) := by rw [mul_assoc, Nat.mod_mul_mod, ← mul_assoc, montForm]

theorem redc_mod_mul_montSetup (a : Nat) : redc w (a % n * (montSetup w n).2.2) n = montForm w n (a % n) :=
  redc_mul_radixSquare hn hlt (Nat.mod_lt a (by omega))

theorem powerModMont_eq_pow_mod (base exponent : Nat) : powerModMont w base exponent n = base ^ exponent % n := by
  have hloop := powLoop_represents (mulm := fun a b => montMul w a b n) (montMul_montForm hn hlt) _ (1 % n) (base % n)
    (lt_two_pow_bitlen exponent)
  simp only [powerModMont, redc_mod_mul_montSetup hn hlt, hloop]
  rw [montForm, redc_mul_two_pow_mod hn, one_mod_mul_mod_pow]

end

/-! ## The Barrett realisation (R169) -/

section
variable {n : Nat} (hn : n ≠ 0)
include hn

/-- The engine's modular product: two residues have a product in its input range. -/
theorem barReduce_mod_mul_mod (a b : Nat) :
    barReduce (a % n * (b % n)) n (bitlen n) (2 ^ (2 * bitlen n) / n) = a * b % n := by
  have hres (c : Nat) : c % n < 2 ^ bitlen n := (Nat.mod_lt c (Nat.pos_of_ne_zero hn)).trans (lt_two_pow_bitlen n)
  have hrange : a % n * (b % n) < 2 ^ (2 * bitlen n) := by
    rw [two_mul, pow_add]
    exact Nat.mul_lt_mul'' (hres a) (hres b)
  rw [barReduce_eq_mod (bitlen_pos hn) (two_pow_le_of_bitlen hn) hrange, ← Nat.mul_mod]

/-- The engine reduces by every modulus, so this realisation does not need the modulus to be even. -/
theorem powerModBar_eq_pow_mod (base exponent : Nat) : powerModBar base exponent n = base ^ exponent % n := by
  have hloop := powLoop_represents (mulm := fun a b => barReduce (a * b) n (bitlen n) (2 ^ (2 * bitlen n) / n))
    (rep := (· % n)) (barReduce_mod_mul_mod hn) _ 1 base (lt_two_pow_bitlen exponent)
  rwa [one_mul] at hloop

end

/-! ## What each command does (R165, R170) -/

section
variable {s : State} (rd ra rb : Reg) {rc : Reg}

theorem exec_mulmod_of_zero (h : s.reg rc = 0) : exec (.mulmod rd ra rb rc) s = .next (s.raise .zeroMod) := if_pos h

theorem exec_powmod_of_zero (h : s.reg rc = 0) : exec (.powmod rd ra rb rc) s = .next (s.raise .zeroMod) := if_pos h

theorem exec_mulmod_of_ne_zero (h : s.reg rc ≠ 0) :
    exec (.mulmod rd ra rb rc) s = .next (s.setReg rd (s.reg ra * s.reg rb % s.reg rc)).finish :=
  if_neg h

theorem exec_powmod_of_ne_zero (h : s.reg rc ≠ 0) :
    exec (.powmod rd ra rb rc) s = .next (s.setReg rd (s.reg ra ^ s.reg rb % s.reg rc)).finish := by
  rw [← powerMod_eq_pow_mod]
  exact if_neg h

end

/-! ## The statements -/

/-- Settles O49: the modulus is tested for 0, and the loop of POWMOD is the power modulo any modulus. -/
theorem modularProductAndPower : Obligations.ModularProductAndPower := by
  intro s rd ra rb rc
  refine ⟨⟨?mulmodWord, ?powmodWord⟩, ?zeroMod,
    fun h => ⟨exec_mulmod_of_ne_zero rd ra rb h, exec_powmod_of_ne_zero rd ra rb h⟩⟩
  case mulmodWord => exact onlyWordOf_encode (i := .mulmod rd ra rb rc) rfl
  case powmodWord => exact onlyWordOf_encode (i := .powmod rd ra rb rc) rfl
  case zeroMod =>
    intro h
    rw [List.forall_mem_cons, List.forall_mem_singleton]
    exact ⟨exec_mulmod_of_zero rd ra rb h, exec_powmod_of_zero rd ra rb h⟩

/-- Settles O50: each of the three loops returns the power modulo N, the Montgomery one after it left the Montgomery form. -/
theorem bothPipelineRealisationsArePowermod : Obligations.BothPipelineRealisationsArePowermod := by
  intro w base exponent n
  rw [powerMod_eq_pow_mod]
  exact ⟨fun hodd hlt => powerModMont_eq_pow_mod hodd hlt base exponent,
    fun hpos _ => powerModBar_eq_pow_mod (Nat.one_le_iff_ne_zero.mp hpos) base exponent⟩

end Sys2Proof.Machine
end

section
/-! PROOFS. The Miller-Rabin circuit and the drawing commands (46_miller_rabin.md R177 to R184): a draw of `k` bits answers
exactly when the words are there, `Factor` halves until it meets the odd part, and each command completes exactly when its
pseudocode has a result on the words drawn. -/

namespace Sys2Proof.Machine

/-! ## Words and candidates (R177, R183) -/

theorem wordsValue_cons (n : Nat) (w : Word) (ws : List Word) :
    wordsValue (n + 1) (w :: ws) = w.toNat + 2 ^ 32 * wordsValue n ws := by
  have hshift (i : Nat) : (ws.getD i 0).toNat * 2 ^ (32 * (i + 1)) = 2 ^ 32 * ((ws.getD i 0).toNat * 2 ^ (32 * i)) := by
    rw [two_pow_limb_succ, Nat.mul_left_comm]
  simp only [wordsValue, Finset.sum_range_succ', List.getD_cons_succ, List.getD_cons_zero, hshift, ← Finset.mul_sum,
    Nat.mul_zero, Nat.pow_zero, Nat.mul_one]
  rw [Nat.add_comm]

theorem takeWords_eq_none {n : Nat} {ws : List Word} (h : ws.length < n) : takeWords n ws = none := by
  induction n generalizing ws with
  | zero => exact absurd h (Nat.not_lt_zero _)
  | succ n ih =>
    cases ws with
    | nil => rfl
    | cons w ws => rw [takeWords, ih (Nat.lt_of_succ_lt_succ h), Option.map_none]

theorem takeWords_eq_some {n : Nat} {ws : List Word} (h : n ≤ ws.length) :
    takeWords n ws = some (wordsValue n ws, ws.drop n) := by
  induction n generalizing ws with
  | zero => rfl
  | succ n ih =>
    cases ws with
    | nil => exact absurd h (Nat.not_succ_le_zero n)
    | cons w ws => rw [takeWords, ih (Nat.le_of_succ_le_succ h), Option.map_some, wordsValue_cons, List.drop_succ_cons]

theorem drawBits_eq_none {k : Nat} {ws : List Word} (h : ws.length < (k + 31) / 32) : drawBits k ws = none := by
  rw [drawBits, takeWords_eq_none h, Option.map_none]

theorem drawBits_eq_some {k : Nat} {ws : List Word} (h : (k + 31) / 32 ≤ ws.length) :
    drawBits k ws = some (wordsValue ((k + 31) / 32) ws % 2 ^ k, ws.drop ((k + 31) / 32)) := by
  rw [drawBits, takeWords_eq_some h, Option.map_some]

theorem candidate_eq_none {bits : Nat} {ws : List Word} (h : drawBits (bits - 1) ws = none) :
    candidate bits ws = none := by
  rw [candidate, h, Option.map_none]

theorem candidate_eq_some {bits v : Nat} {ws rest : List Word} (h : drawBits (bits - 1) ws = some (v, rest)) :
    candidate bits ws = some (2 ^ (bits - 1) + v, rest) := by
  rw [candidate, h, Option.map_some]

/-- A candidate has exactly `bits` bits: its top bit is forced, and what is drawn stays below it. -/
theorem two_pow_pred_add_lt {bits v : Nat} (hbits : 1 ≤ bits) (hv : v < 2 ^ (bits - 1)) : 2 ^ (bits - 1) + v < 2 ^ bits := by
  calc 2 ^ (bits - 1) + v < 2 ^ (bits - 1) + 2 ^ (bits - 1) := Nat.add_lt_add_left hv _
    _ = 2 ^ bits := by rw [← Nat.mul_two, Nat.two_pow_pred_mul_two hbits]

/-! ## Factor (R179) -/

/-- The loop takes one factor 2 a round until it meets the odd part, so as much fuel as there are factors is enough. -/
theorem factorLoop_mul_two_pow {r k f : Nat} (hr : r % 2 = 1) (hk : k ≤ f) (s : Nat) :
    factorLoop f (r * 2 ^ k) s = (r, s + k) := by
  induction k generalizing f s with
  | zero => cases f <;> simp [factorLoop, hr]
  | succ k ih =>
    obtain ⟨f, rfl⟩ : ∃ g, f = g + 1 := ⟨f - 1, by omega⟩
    have hdouble : r * 2 ^ (k + 1) = 2 * (r * 2 ^ k) := by rw [pow_succ', Nat.mul_left_comm]
    rw [hdouble, factorLoop, if_pos (Nat.mul_mod_right 2 _), Nat.mul_div_cancel_left _ two_pos, ih (by omega),
      Nat.add_right_comm, Nat.add_assoc]

theorem factor_eq {n r s : Nat} (hr : r % 2 = 1) (h : n - 1 = r * 2 ^ s) : factor n = (r, s) := by
  have hpow : 2 ^ s < 2 ^ bitlen (n - 1) :=
    calc 2 ^ s ≤ r * 2 ^ s := Nat.le_mul_of_pos_left _ (by omega)
      _ < 2 ^ bitlen (n - 1) := h ▸ lt_two_pow_bitlen (n - 1)
  have hfuel : s ≤ bitlen (n - 1) := ((Nat.pow_lt_pow_iff_right one_lt_two).mp hpow).le
  rw [factor, h, factorLoop_mul_two_pow hr (h ▸ hfuel), Nat.zero_add]

/-! ## The outcomes of `isprime` that need no word (R180) -/

theorem isPrime_of_lt_two_or_even {n : Nat} (it : Nat) (ws : List Word) (h : n < 2 ∨ (n % 2 = 0 ∧ n ≠ 2)) :
    isPrime n it ws = some (false, ws) := by
  rcases h with hlt | ⟨heven, hne⟩
  · exact if_pos hlt
  · have hsmall : ¬ (n = 2 ∨ n = 3) := by omega
    simp [isPrime, hsmall, heven]

theorem isPrime_of_two_or_three {n : Nat} (it : Nat) (ws : List Word) (h : n = 2 ∨ n = 3) :
    isPrime n it ws = some (true, ws) := by
  have hge : ¬ n < 2 := by omega
  rw [isPrime, if_neg hge, if_pos h]

theorem isPrime_eq_rounds {n : Nat} (it : Nat) (ws : List Word) (hn : 5 ≤ n) (hodd : n % 2 = 1) :
    isPrime n it ws = rounds n (factor n).1 (factor n).2 it ws := by
  rw [isPrime, if_neg (by omega), if_neg (by omega), if_neg (by omega)]

theorem isPrime_zero_iterations {n : Nat} (ws : List Word) (hn : 5 ≤ n) (hodd : n % 2 = 1) :
    isPrime n 0 ws = some (true, ws) :=
  isPrime_eq_rounds 0 ws hn hodd

/-! ## What each command does (R182, R184) -/

section
variable {s : State} {ra : Reg} {imm : Nat} {rest : List Word}

theorem exec_isprime (s : State) (ra : Reg) (imm : Nat) : exec (.isprime ra imm) s =
    drawing (isPrime (s.reg ra) imm s.drawn) s fun b => complete (s.setPrime b) := rfl

theorem exec_isprime_of_none (h : isPrime (s.reg ra) imm s.drawn = none) : exec (.isprime ra imm) s = drawWord s := by
  rw [exec_isprime, h, drawing_none]

theorem exec_isprime_of_some {b : Bool} (h : isPrime (s.reg ra) imm s.drawn = some (b, rest)) :
    exec (.isprime ra imm) s = .next (s.setPrime b).finish := by
  rw [exec_isprime, h, drawing_some, complete_eq]

theorem exec_rand_of_illegal_count (rd : Reg) (h : s.reg ra < 1 ∨ s.width < s.reg ra) :
    exec (.rand rd ra) s = .next (s.raise .param) := if_pos h

theorem exec_rand_of_legal_count (rd : Reg) (h1 : 1 ≤ s.reg ra) (hW : s.reg ra ≤ s.width) : exec (.rand rd ra) s =
    drawing (candidate (s.reg ra) s.drawn) s fun c => complete (s.setReg rd c) := if_neg (by omega)

section
variable (rd : Reg) (h1 : 1 ≤ s.reg ra) (hW : s.reg ra ≤ s.width)
include h1 hW

theorem exec_rand_of_none (h : candidate (s.reg ra) s.drawn = none) : exec (.rand rd ra) s = drawWord s := by
  rw [exec_rand_of_legal_count rd h1 hW, h, drawing_none]

theorem exec_rand_of_some {c : Nat} (h : candidate (s.reg ra) s.drawn = some (c, rest)) :
    exec (.rand rd ra) s = .next (s.setReg rd c).finish := by
  rw [exec_rand_of_legal_count rd h1 hW, h, drawing_some, complete_eq]

end

end

/-! ## The statements -/

/-- Settles O54: `n - 1` has an odd part and a power of two, and the loop returns any such pair, so there is only one. -/
theorem factorSplitsOffThePowerOfTwo : Obligations.FactorSplitsOffThePowerOfTwo := by
  intro n hodd hn
  obtain ⟨s, r, hr, hsplit⟩ := Nat.exists_eq_two_pow_mul_odd (n := n - 1) (by omega)
  rw [Nat.mul_comm] at hsplit
  have hr : r % 2 = 1 := Nat.odd_iff.mp hr
  rw [factor_eq hr hsplit]
  refine ⟨hr, ?counted, hsplit, ?unique⟩
  case counted =>
    by_contra hs
    obtain rfl : s = 0 := by omega
    omega
  case unique =>
    intro r' s' hr' hsplit'
    rw [← factor_eq hr' hsplit', factor_eq hr hsplit]

/-- Settles O57: each early outcome is a verdict of `isprime` on the words drawn, whatever they are. -/
theorem isprimeWritesTheVerdict : Obligations.IsprimeWritesTheVerdict := by
  intro s ra imm himm
  refine ⟨?word, fun b rest => exec_isprime_of_some, ?composite, ?prime, ?draw⟩
  case word => exact onlyWordOf_encode (i := .isprime ra imm) (decide_eq_true himm)
  case composite => exact fun h => exec_isprime_of_some (isPrime_of_lt_two_or_even imm s.drawn h)
  case prime =>
    rintro (h2 | h3 | ⟨rfl, h5, hodd⟩)
    · exact exec_isprime_of_some (isPrime_of_two_or_three imm s.drawn (.inl h2))
    · exact exec_isprime_of_some (isPrime_of_two_or_three imm s.drawn (.inr h3))
    · exact exec_isprime_of_some (isPrime_zero_iterations s.drawn h5 hodd)
  case draw => exact fun h w ws hrnd => (exec_isprime_of_none h).trans (drawWord_draw hrnd)

/-- Settles O58: for a legal count the number of words drawn decides whether the candidate is there or a word is missing. -/
theorem randWritesACandidate : Obligations.RandWritesACandidate := by
  intro s rd ra
  refine ⟨?word, exec_rand_of_illegal_count rd, fun h1 hW => ⟨?draw, ?result⟩⟩
  case word => exact onlyWordOf_encode (i := .rand rd ra) rfl
  case draw =>
    intro hshort w ws hrnd
    have hcandidate := candidate_eq_none (drawBits_eq_none hshort)
    exact (exec_rand_of_none rd h1 hW hcandidate).trans (drawWord_draw hrnd)
  case result =>
    intro henough
    have hdrawn := drawBits_eq_some henough
    exact ⟨_, rfl, Nat.le_add_right _ _, two_pow_pred_add_lt h1 (drawBits_lt hdrawn),
      exec_rand_of_some rd h1 hW (candidate_eq_some hdrawn)⟩

end Sys2Proof.Machine
end

section
/-! PROOFS. Errors and the interrupt (60_exceptions.md R201, R202, R210): what one engine step of a command can do, said once for
all 25 commands, what `irq` is after each move that raises or lowers it, then the two statements. -/

namespace Sys2Proof.Machine

/-! ## What the engine's step of a command can do (10_state.md R41, R42) -/

/-- `u` is `s` but for what a rule's result may be: operand registers, result flags and unit contexts. Nothing of the command's
life cycle, the configuration or the environment differs. -/
def WritesResultsOnly (s u : State) : Prop :=
  u = { s with
    x := u.x, flagEq := u.flagEq, flagLt := u.flagLt, flagOdd := u.flagOdd, flagPrime := u.flagPrime, flagNone := u.flagNone,
    mvalid := u.mvalid, mn := u.mn, mnp := u.mnp, mr2 := u.mr2, bvalid := u.bvalid, bn := u.bn, bk := u.bk, bmu := u.bmu }

theorem WritesResultsOnly.ie_eq {s u : State} (h : WritesResultsOnly s u) : u.ie = s.ie := (congrArg State.ie h :)

theorem WritesResultsOnly.err_eq {s u : State} (h : WritesResultsOnly s u) : u.err = s.err := (congrArg State.err h :)

/-- What an engine step of the command `i` can answer in the state `s`. -/
inductive CommandOutcome (i : Instr) (s : State) : Result → Prop
  /-- The complete step without error, after the rule's writes. -/
  | finish {u : State} (h : WritesResultsOnly s u) : CommandOutcome i s (.next u.finish)
  /-- The complete step with error, from the state the command found. -/
  | raise (e : Err) : CommandOutcome i s (.next (s.raise e))
  /-- A draw step. -/
  | draw {w : Word} {ws : List Word} (hi : i.draws = true) (hrnd : s.rnd = w :: ws) :
      CommandOutcome i s (.next { s with rnd := ws, drawn := s.drawn ++ [w], rndcnt := s.rndcnt + 1 })
  /-- A draw step on an empty RND port. -/
  | hold (hi : i.draws = true) (hrnd : s.rnd = []) : CommandOutcome i s (.fault .rndHold)

section
variable {i : Instr} {s : State}

theorem CommandOutcome.complete {u : State} (h : WritesResultsOnly s u) : CommandOutcome i s (complete u) := .finish h

/-- A check that raises an error keeps to the outcomes when what follows it does. -/
theorem CommandOutcome.check {c : Prop} [Decidable c] {r : Result} (e : Err) (h : CommandOutcome i s r) :
    CommandOutcome i s (if c then raiseError e s else r) := by
  split
  · exact .raise e
  · exact h

theorem CommandOutcome.writeExact (rd : Reg) (v : Nat) : CommandOutcome i s (writeExact rd v s) := by
  by_cases hv : v < 2 ^ s.width
  · rw [writeExact_fits rd v s hv]
    exact .finish rfl
  · rw [writeExact_overflows rd v s (Nat.not_lt.mp hv)]
    exact .raise .overflow

theorem CommandOutcome.drawing {α : Type} {k : α → Result} (o : Option (α × List Word)) (hi : i.draws = true)
    (h : ∀ a, CommandOutcome i s (k a)) : CommandOutcome i s (drawing o s k) := by
  match o with
  | some (a, _) => exact h a
  | none =>
    rw [drawing_none]
    match hrnd : s.rnd with
    | [] => exact drawWord_hold hrnd ▸ .hold hi hrnd
    | w :: ws => exact drawWord_draw hrnd ▸ .draw hi hrnd

end

/-- Every command keeps to the outcomes. The cases are grouped by the checks its rule makes before its result is written. -/
theorem exec_outcome (i : Instr) (s : State) : CommandOutcome i s (exec i s) := by
  cases i with
  | nop | li _ _ | mov _ _ | shr _ _ _ | parity _ | cmp _ _ | gcd _ _ _ => exact .complete rfl
  | add rd _ _ | mul rd _ _ | shl rd _ _ => exact .writeExact rd _
  | sub _ _ _ => exact .check .negative (.complete rfl)
  | mod _ _ _ | mulmod _ _ _ _ | powmod _ _ _ _ | barset _ => exact .check .zeroMod (.complete rfl)
  | montset _ => exact .check .zeroMod (.check .evenMod (.complete rfl))
  | montmul _ _ _ | tomont _ _ | frommont _ _ | barred _ _ | barmul _ _ _ =>
    exact .check .noCtx (.check .range (.complete rfl))
  | modinv rd ra rb =>
    by_cases hn : s.reg rb = 0
    · rw [exec_modinv_of_zero rd ra hn]
      exact .raise .zeroMod
    · cases hinv : modInverse (s.reg ra) (s.reg rb) with
      | none =>
        rw [exec_modinv_of_none rd hn hinv]
        exact .finish rfl
      | some _ =>
        rw [exec_modinv_of_some rd hn hinv]
        exact .finish rfl
  | isprime _ _ => exact .drawing _ rfl fun _ => .complete rfl
  | makeprime _ _ _ | rand _ _ => exact .check .param (.drawing _ rfl fun _ => .complete rfl)

/-- The ways a command reaches a next state: it completes, it raises an error, or it draws a word and stays in flight. -/
theorem exec_next_cases {i : Instr} {s t : State} (h : exec i s = .next t) :
    (∃ u, WritesResultsOnly s u ∧ t = u.finish) ∨ (∃ e, t = s.raise e) ∨
    (i.draws = true ∧ ∃ w ws, s.rnd = w :: ws ∧
      t = { s with rnd := ws, drawn := s.drawn ++ [w], rndcnt := s.rndcnt + 1 }) := by
  have houtcome := exec_outcome i s
  rw [h] at houtcome
  cases houtcome with
  | finish hu => exact .inl ⟨_, hu, rfl⟩
  | raise e => exact .inr (.inl ⟨e, rfl⟩)
  | draw hi hrnd => exact .inr (.inr ⟨hi, _, _, hrnd, rfl⟩)

/-! ## An illegal word (30_encoding.md R86) -/

theorem engineStep_illegal {s : State} {r : Reject} (hb : s.busy = true) (hd : decode s.cmd = .error r) :
    engineStep s = .next (s.raise .illegal) := by
  rw [engineStep, if_pos hb, hd, raiseError_eq]

theorem State.engineTurn_of_no_turns {s : State} (h : s.turns = []) : s.engineTurn = some s := by
  rw [State.engineTurn, h]

theorem Err.one_le_code (e : Err) : 1 ≤ e.code.toNat := by cases e <;> decide

/-! ## The interrupt output -/

section
variable (s : State)

@[simp] theorem State.irq_finish : s.finish.irq = s.ie := Bool.true_and s.ie

@[simp] theorem State.irq_raise (e : Err) : (s.raise e).irq = s.ie := Bool.true_and s.ie

theorem State.irq_of_done_false {s : State} (h : s.done = false) : s.irq = false := by rw [State.irq, h, Bool.false_and]

theorem State.irq_of_ie_false {s : State} (h : s.ie = false) : s.irq = false := by rw [State.irq, h, Bool.and_false]

theorem State.memWrite_status (v : Word) : s.memWrite 0x004 4 v = (s.writeStatus v, .writeOk) :=
  State.memWrite_ok (State.target_control (l := .status) rfl rfl (by decide) (by decide))

end

/-- The step that takes a command out of flight is its complete step, with or without error, so `irq` is IE after it. -/
theorem irq_of_exec_completes {i : Instr} {s t : State} (hb : s.busy = true) (h : exec i s = .next t) (ht : t.busy = false) :
    t.irq = s.ie := by
  obtain ⟨u, hu, rfl⟩ | ⟨e, rfl⟩ | ⟨-, w, ws, -, rfl⟩ := exec_next_cases h
  · rw [State.irq_finish, hu.ie_eq]
  · exact s.irq_raise e
  · exact absurd hb (ne_true_of_eq_false ht)

/-- Only an error sets ERR: a command that leaves it at 1 has raised. -/
theorem raise_of_exec_err {i : Instr} {s t : State} (hs : s.err = false) (h : exec i s = .next t) (ht : t.err = true) :
    ∃ e, t = s.raise e := by
  obtain ⟨u, hu, rfl⟩ | herr | ⟨-, w, ws, -, rfl⟩ := exec_next_cases h
  · rw [State.finish_err, hu.err_eq] at ht
    exact absurd ht (ne_true_of_eq_false hs)
  · exact herr
  · exact absurd ht (ne_true_of_eq_false hs)

/-! ## The statements -/

/-- Settles O23: a complete step leaves DONE at 1, and each of the other moves leaves DONE or IE at 0. -/
theorem interruptFollowsDoneAndEnable : Obligations.InterruptFollowsDoneAndEnable := by
  refine ⟨fun _ => rfl, fun s t i => irq_of_exec_completes, fun s => s.irq_raise .illegal, ?clearDone, ?accept, ?clearEnable,
    fun c => ⟨rfl, rfl⟩⟩
  case clearDone =>
    intro s v hv
    rw [State.memWrite_status]
    exact State.irq_of_done_false (by simp [hv])
  case accept =>
    intro s w hb
    rw [State.memWrite_cmd, State.writeCmd_idle w hb]
    exact State.irq_of_done_false (s.accept_done w)
  case clearEnable =>
    intro s v hv
    rw [State.memWrite_ctrl]
    exact State.irq_of_ie_false hv

/-- Settles O24: ending in error and executing an illegal word are both `State.raise`, whose fields are those of R202. -/
theorem errorsWriteNothingElse : Obligations.ErrorsWriteNothingElse := by
  refine ⟨?command, ?illegalWord⟩
  case command =>
    intro i s t hs h ht
    obtain ⟨e, rfl⟩ := raise_of_exec_err hs h ht
    exact ⟨e, rfl, e.one_le_code, e.code_le, (s.irq_raise e).trans⟩
  case illegalWord =>
    intro s r hb hturns hd
    have hstep : step s = .next (s.raise .illegal) :=
      (step_engine (State.engineTurn_of_no_turns hturns)).trans (engineStep_illegal hb hd)
    exact ⟨_, hstep, rfl, (s.irq_raise .illegal).trans⟩

end Sys2Proof.Machine
end

section
/-! PROOFS. The round trip between words and commands (30_encoding.md R81 to R86): from the rules of the one word of a command,
what the decoder reads is well-formed, and the rows of the table are the rows of the commands. -/

namespace Sys2Proof

theorem immOk_immOf (w : Word) : immOk (immOf w) = true := decide_eq_true (Nat.mod_lt _ (by decide))

/-- Every field of a word is in its range, so no word is read as an ill-formed command. -/
theorem wf_readFrom (w : Word) (i : Instr) : (i.readFrom w).wf = true := by
  cases i with
  | li _ _ | shl _ _ _ | shr _ _ _ | isprime _ _ | makeprime _ _ _ => exact immOk_immOf w
  | _ => rfl

/-- The row depends on the command, not on its operands. -/
theorem tableRow_readFrom (w : Word) (i : Instr) : tableRow (i.readFrom w) = tableRow i := by
  cases i <;> rfl

/-- One command for every row of the opcode table, in the order of R84, its operands 0. -/
def Instr.shapes : List Instr :=
  [.nop, .li 0 0, .mov 0 0, .add 0 0 0, .sub 0 0 0, .mul 0 0 0, .mod 0 0 0, .shl 0 0 0, .shr 0 0 0, .parity 0, .cmp 0 0,
   .gcd 0 0 0, .modinv 0 0 0, .mulmod 0 0 0 0, .powmod 0 0 0 0, .montset 0, .montmul 0 0 0, .tomont 0 0, .frommont 0 0,
   .barset 0, .barred 0 0, .barmul 0 0 0, .isprime 0 0, .makeprime 0 0 0, .rand 0 0]

theorem readFrom_zero_mem_shapes (i : Instr) : i.readFrom 0 ∈ Instr.shapes := by
  cases i <;> exact of_decide_eq_true rfl

theorem meetsRow_congr {w : Word} {i j : Instr} (h : tableRow i = tableRow j) : MeetsRow w i ↔ MeetsRow w j := by
  rw [MeetsRow, MeetsRow, h]

/-- A word meets a row exactly when it is decoded to a command of that row. -/
theorem meetsRow_iff_exists_decode {w : Word} {i : Instr} :
    MeetsRow w i ↔ ∃ j, decode w = .ok j ∧ tableRow j = tableRow i := by
  constructor
  · exact fun h => ⟨i.readFrom w, decode_of_meetsRow h, tableRow_readFrom w i⟩
  · rintro ⟨j, hj, hrow⟩
    exact (meetsRow_congr hrow).mp (meetsRow_of_decode hj).1

theorem decode_eq_error_of_no_row {w : Word} (h : ∀ i ∈ Instr.shapes, ¬ MeetsRow w i) : ∃ e, decode w = .error e := by
  cases hd : decode w with
  | error e => exact ⟨e, rfl⟩
  | ok i =>
    have hrow : MeetsRow w (i.readFrom 0) := (meetsRow_congr (tableRow_readFrom 0 i)).mpr (meetsRow_of_decode hd).1
    exact absurd hrow (h _ (readFrom_zero_mem_shapes i))

end Sys2Proof

namespace Sys2Proof.Machine

/-- Settles O1: the encoding is the command's one word, so the decoder reads the command from it. -/
theorem decodeOfEncodeIsTheCommand : Obligations.DecodeOfEncodeIsTheCommand :=
  fun i h => (onlyWordOf_encode h (encode i)).mpr rfl

/-- Settles O2: a decoded command is what is read from a word that meets its row, and that is well-formed and encoded back. -/
theorem eachCommandHasOneWord : Obligations.EachCommandHasOneWord := by
  intro w i h
  obtain ⟨hrow, hread⟩ := meetsRow_of_decode h
  rw [← hread]
  exact ⟨wf_readFrom w i, encode_readFrom_of_meetsRow hrow⟩

/-- Settles O3: the table's rows are those of the 25 commands, and a word that meets no command's row is rejected. -/
theorem decodeFollowsTheOpcodeTable : Obligations.DecodeFollowsTheOpcodeTable := by
  unfold Obligations.DecodeFollowsTheOpcodeTable
  intro table
  have htable : table = Instr.shapes.map fun i => ((tableRow i).2, (tableRow i).1) := rfl
  simp only [htable, List.forall_mem_map]
  exact ⟨fun i _ w => meetsRow_iff_exists_decode, fun w => decode_eq_error_of_no_row⟩

end Sys2Proof.Machine
end

section
/-! PROOFS. The steps of the system (00_scope.md R9, 10_state.md R40 to R44, 20_memory.md section 3): which agent moves, what its
move can do, said once for a step, for a host access and for a draw, then the statements about single moves and about runs. -/

namespace Sys2Proof.Machine

/-! ## Whose turn it is -/

section
variable {s : State} {ts : List Turn}

theorem State.engineTurn_of_engine (h : s.turns = .engine :: ts) : s.engineTurn = some { s with turns := ts } := by
  rw [State.engineTurn, h]

theorem State.engineTurn_of_wait_busy (h : s.turns = .waitIdle :: ts) (hb : s.busy = true) : s.engineTurn = some s := by
  rw [State.engineTurn, h]
  exact if_pos hb

theorem engineStep_command {i : Instr} (hb : s.busy = true) (hd : decode s.cmd = .ok i) : engineStep s = exec i s := by
  rw [engineStep, if_pos hb, hd]

theorem engineStep_idle (hb : s.busy = false) : engineStep s = .fault .idle := by
  rw [engineStep, if_neg (ne_true_of_eq_false hb)]

theorem step_host {a : Access} (h : s.turns = .host a :: ts) : step s = .next (State.access { s with turns := ts } a) := by
  rw [step_env (by rw [State.engineTurn, h]), State.envTurn, h]

theorem step_deliver {w : Word} (h : s.turns = .deliver w :: ts) :
    step s = .next { s with turns := ts, rnd := s.rnd ++ [w] } := by
  rw [step_env (by rw [State.engineTurn, h]), State.envTurn, h]

theorem step_wait_idle (h : s.turns = .waitIdle :: ts) (hb : s.busy = false) : step s = .next { s with turns := ts } := by
  have hturn : s.engineTurn = none := by
    rw [State.engineTurn, h]
    exact if_neg (ne_true_of_eq_false hb)
  rw [step_env hturn, State.envTurn, h]

end

/-! ## What a step can do -/

/-- What a step from `s` can end in, by the agent that moves. `ts` are the moves still to come. -/
inductive Move (s : State) : State → Prop
  /-- The engine makes one step of the command in flight. -/
  | command {ts : List Turn} {i : Instr} {t : State} (hb : s.busy = true) (hd : decode s.cmd = .ok i)
      (h : exec i { s with turns := ts } = .next t) : Move s t
  /-- The engine executes an illegal word. -/
  | illegal {ts : List Turn} (hb : s.busy = true) : Move s (State.raise { s with turns := ts } .illegal)
  | host {ts : List Turn} {a : Access} (h : s.turns = .host a :: ts) : Move s (State.access { s with turns := ts } a)
  | deliver {ts : List Turn} {w : Word} : Move s { s with turns := ts, rnd := s.rnd ++ [w] }
  | rst {ts : List Turn} (h : s.turns = .rst :: ts) : Move s (State.rst { s with turns := ts })
  /-- The host saw BUSY = 0. -/
  | wait {ts : List Turn} : Move s { s with turns := ts }

/-- The engine moves only with a word in flight, which is a command or not. -/
theorem engineStep_move {s t : State} {ts : List Turn} (h : engineStep { s with turns := ts } = .next t) : Move s t := by
  cases hb : s.busy with
  | false => cases h.symm.trans (engineStep_idle hb)
  | true =>
    cases hd : decode s.cmd with
    | ok i => exact .command hb hd ((engineStep_command (s := { s with turns := ts }) hb hd).symm.trans h)
    | error r =>
      cases h.symm.trans (engineStep_illegal hb hd)
      exact .illegal hb

theorem step_move {s t : State} (h : step s = .next t) : Move s t := by
  match hturns : s.turns with
  | [] =>
    rw [step_engine (State.engineTurn_of_no_turns hturns)] at h
    exact engineStep_move (ts := s.turns) h
  | .engine :: ts =>
    rw [step_engine (State.engineTurn_of_engine hturns)] at h
    exact engineStep_move h
  | .host a :: ts =>
    rw [step_host hturns] at h
    cases h
    exact .host hturns
  | .deliver w :: ts =>
    rw [step_deliver hturns] at h
    cases h
    exact .deliver
  | .rst :: ts =>
    rw [step_rst hturns] at h
    cases h
    exact .rst hturns
  | .waitIdle :: ts =>
    cases hb : s.busy with
    | true =>
      rw [step_engine (State.engineTurn_of_wait_busy hturns hb)] at h
      exact engineStep_move (ts := s.turns) h
    | false =>
      rw [step_wait_idle hturns hb] at h
      cases h
      exact .wait

/-! ## What a host access can do (20_memory.md R52, R53) -/

/-- What an access can end in. `r` is the reply kept for the host. -/
inductive AccessOutcome (s : State) (a : Access) : State → Prop
  /-- A read, a write that gets no further than its reply, or a write to a read-only location. -/
  | reply (r : Option BusReply) : AccessOutcome s a { s with reply := r }
  | accept (w : Word) (r : Option BusReply) (hb : s.busy = false) : AccessOutcome s a { s.accept w with reply := r }
  /-- A command dropped while BUSY = 1. -/
  | drop (r : Option BusReply) : AccessOutcome s a { s with ovr := true, reply := r }
  | status (v : Word) (r : Option BusReply) : AccessOutcome s a { s.writeStatus v with reply := r }
  | ctrl (b : Bool) (r : Option BusReply) : AccessOutcome s a { s with ie := b, reply := r }
  /-- A write to one limb of an operand register, which BUSY = 1 would close. -/
  | limb {addr : Nat} {v : Word} {i : Reg} {j : Nat} (r : Option BusReply) (ha : a = .write addr 4 v)
      (hb : s.busy = false) (hl : locate s.cfg.limbs addr = some (.operand i j)) :
      AccessOutcome s a { s.setReg i (setLimb (s.reg i) j v) with reply := r }

theorem State.access_outcome (s : State) (a : Access) : AccessOutcome s a (s.access a) := by
  cases a with
  | read addr n => exact .reply _
  | write addr n v =>
    cases ht : s.target addr n with
    | error r =>
      rw [State.access, State.memWrite_error ht]
      exact .reply _
    | ok l =>
      obtain ⟨-, rfl, -, hl, hopen⟩ := State.target_ok ht
      rw [State.access, State.memWrite_ok ht]
      obtain hstore | ⟨-, hb, hstore⟩ | ⟨-, -, hstore⟩ | ⟨-, hstore⟩ | ⟨-, hstore⟩ | ⟨i, j, rfl, hstore⟩ := s.store_cases l v
      all_goals rw [hstore]
      · exact .reply _
      · exact .accept v _ hb
      · exact .drop _
      · exact .status v _
      · exact .ctrl _ _
      · exact .limb _ rfl (hopen rfl) hl

/-! ## When a command asks for a word (10_state.md R41) -/

/-- The command's evaluation on the words drawn so far needs one more. -/
def Asks (i : Instr) (s : State) : Prop :=
  match i with
  | .isprime ra imm => isPrime (s.reg ra) imm s.drawn = none
  | .makeprime _ ra imm => (2 ≤ s.reg ra ∧ s.reg ra ≤ s.width) ∧ makePrime (s.reg ra) imm s.drawn = none
  | .rand _ ra => (1 ≤ s.reg ra ∧ s.reg ra ≤ s.width) ∧ candidate (s.reg ra) s.drawn = none
  | _ => False

section
variable {s : State} {ra : Reg} {imm : Nat} {rest : List Word}

theorem exec_makeprime_of_illegal_count (rd : Reg) (imm : Nat) (h : s.reg ra < 2 ∨ s.width < s.reg ra) :
    exec (.makeprime rd ra imm) s = .next (s.raise .param) := if_pos h

theorem exec_makeprime_of_legal_count (rd : Reg) (imm : Nat) (h2 : 2 ≤ s.reg ra) (hW : s.reg ra ≤ s.width) :
    exec (.makeprime rd ra imm) s = drawing (makePrime (s.reg ra) imm s.drawn) s fun c =>
      complete ((s.setReg rd c).setPrime true) := if_neg (by omega)

section
variable (rd : Reg) (h2 : 2 ≤ s.reg ra) (hW : s.reg ra ≤ s.width)
include h2 hW

theorem exec_makeprime_of_none (h : makePrime (s.reg ra) imm s.drawn = none) :
    exec (.makeprime rd ra imm) s = drawWord s := by
  rw [exec_makeprime_of_legal_count rd imm h2 hW, h, drawing_none]

theorem exec_makeprime_of_some {c : Nat} (h : makePrime (s.reg ra) imm s.drawn = some (c, rest)) :
    exec (.makeprime rd ra imm) s = .next ((s.setReg rd c).setPrime true).finish := by
  rw [exec_makeprime_of_legal_count rd imm h2 hW, h, drawing_some, complete_eq]

end

theorem exec_of_asks {i : Instr} (h : Asks i s) : exec i s = drawWord s := by
  cases i with
  | isprime ra imm => exact exec_isprime_of_none h
  | makeprime rd ra imm =>
    obtain ⟨⟨h2, hW⟩, hnone⟩ := h
    exact exec_makeprime_of_none rd h2 hW hnone
  | rand rd ra =>
    obtain ⟨⟨h1, hW⟩, hnone⟩ := h
    exact exec_rand_of_none rd h1 hW hnone
  | _ => exact h.elim

/-- A command that asks for no word ends in this step, and takes no word. -/
theorem exec_of_not_asks {i : Instr} (h : ¬ Asks i s) : ∃ t, exec i s = .next t ∧ t.rnd = s.rnd := by
  have hends {r : Result} (houtcome : CommandOutcome i s r) (hdraws : i.draws = false) : ∃ t, r = .next t ∧ t.rnd = s.rnd := by
    cases houtcome with
    | finish hu => exact ⟨_, rfl, (congrArg State.rnd hu :)⟩
    | raise e => exact ⟨_, rfl, rfl⟩
    | draw hi | hold hi => cases hi.symm.trans hdraws
  cases i with
  | isprime ra imm =>
    obtain ⟨⟨b, rest⟩, hsome⟩ := Option.ne_none_iff_exists'.mp h
    exact ⟨_, exec_isprime_of_some hsome, rfl⟩
  | makeprime rd ra imm =>
    by_cases hlegal : 2 ≤ s.reg ra ∧ s.reg ra ≤ s.width
    · obtain ⟨⟨c, rest⟩, hsome⟩ := Option.ne_none_iff_exists'.mp fun hnone => h ⟨hlegal, hnone⟩
      exact ⟨_, exec_makeprime_of_some rd hlegal.1 hlegal.2 hsome, rfl⟩
    · exact ⟨_, exec_makeprime_of_illegal_count rd imm (by omega), rfl⟩
  | rand rd ra =>
    by_cases hlegal : 1 ≤ s.reg ra ∧ s.reg ra ≤ s.width
    · obtain ⟨⟨c, rest⟩, hsome⟩ := Option.ne_none_iff_exists'.mp fun hnone => h ⟨hlegal, hnone⟩
      exact ⟨_, exec_rand_of_some rd hlegal.1 hlegal.2 hsome, rfl⟩
    · exact ⟨_, exec_rand_of_illegal_count rd (by omega), rfl⟩
  | _ => exact hends (exec_outcome _ s) rfl

/-- What the source has ready and how many words it gave do not enter the evaluation. -/
theorem asks_source (i : Instr) (rnd : List Word) (rndcnt : Word) :
    Asks i { s with rnd := rnd, rndcnt := rndcnt } ↔ Asks i s := Iff.rfl

theorem asks_of_exec_hold {i : Instr} {f : Fault} (h : exec i s = .fault f) : Asks i s := by
  by_contra hasks
  obtain ⟨t, ht, -⟩ := exec_of_not_asks hasks
  cases h.symm.trans ht

end

/-! ## Runs -/

theorem run_succ {s t : State} (k : Nat) (h : step s = .next t) : core.run (k + 1) s = core.run k t := by
  have hstep : core.step s = .next t := h
  simp only [Host.Core.run, hstep]

/-- The state of a command in flight after it has drawn the words `p`, with the words `rnd` still ready. -/
def State.afterDraws (s : State) (p rnd : List Word) : State :=
  { s with drawn := p, rnd := rnd, rndcnt := s.rndcnt + BitVec.ofNat 32 p.length }

theorem State.afterDraws_draw (s : State) (p rnd : List Word) (w : Word) :
    drawWord (s.afterDraws p (w :: rnd)) = .next (s.afterDraws (p ++ [w]) rnd) := by
  rw [drawWord_draw rfl]
  simp only [State.afterDraws, List.length_append, List.length_singleton, BitVec.ofNat_add, BitVec.add_assoc]
  rfl

section
variable {s t : State} {i : Instr} {p q more : List Word}

theorem step_afterDraws (hb : s.busy = true) (hturns : s.turns = []) (hd : decode s.cmd = .ok i) (p rnd : List Word) :
    step (s.afterDraws p rnd) = exec i (s.afterDraws p rnd) := by
  have hturn : (s.afterDraws p rnd).engineTurn = some (s.afterDraws p rnd) := State.engineTurn_of_no_turns hturns
  exact (step_engine hturn).trans (engineStep_command hb hd)

/-- As many draws as words are missing, and then the complete step. -/
theorem run_afterDraws (hb : s.busy = true) (hturns : s.turns = []) (hd : decode s.cmd = .ok i)
    (hasks : ∀ p' q', p' ++ q' = p ++ q → q' ≠ [] → Asks i (s.afterDraws p' []))
    (hends : exec i (s.afterDraws (p ++ q) more) = .next t) :
    core.run (q.length + 1) (s.afterDraws p (q ++ more)) = .next t := by
  induction q generalizing p with
  | nil =>
    rw [List.append_nil] at hends
    exact run_succ 0 ((step_afterDraws hb hturns hd p more).trans hends)
  | cons w q ih =>
    have hask : Asks i (s.afterDraws p (w :: q ++ more)) := hasks p (w :: q) rfl (List.cons_ne_nil w q)
    have hstep : step (s.afterDraws p (w :: q ++ more)) = .next (s.afterDraws (p ++ [w]) (q ++ more)) :=
      ((step_afterDraws hb hturns hd p _).trans (exec_of_asks hask)).trans (s.afterDraws_draw p _ w)
    rw [List.append_cons] at hasks hends
    rw [List.length_cons, run_succ _ hstep]
    exact ih hasks hends

end

/-! ## The statements -/

/-- Settles O5: in each of the three cases the engine has the turn. -/
theorem stepRunsTheDecodedCommand : Obligations.StepRunsTheDecodedCommand := by
  intro s i ts hb hd
  refine ⟨fun h => ?noTurns, fun h => ?engine, fun h => ?wait⟩
  case noTurns => exact (step_engine (State.engineTurn_of_no_turns h)).trans (engineStep_command hb hd)
  case engine => exact (step_engine (State.engineTurn_of_engine h)).trans (engineStep_command hb hd)
  case wait => exact (step_engine (State.engineTurn_of_wait_busy h hb)).trans (engineStep_command hb hd)

/-- Settles O6: acceptance does not decode, and the engine's step of a word that is no command raises ILLEGAL. -/
theorem illegalWordEndsInIllegal : Obligations.IllegalWordEndsInIllegal := by
  intro s w r ts hd
  refine ⟨fun hb => ?accepted, fun hb hcmd hturns => ?executed⟩
  case accepted =>
    rw [State.memWrite_cmd, State.writeCmd_idle w hb]
    exact ⟨_, rfl, rfl, rfl⟩
  case executed =>
    rw [← hcmd] at hd
    exact (step_engine (State.engineTurn_of_engine hturns)).trans (engineStep_illegal hb hd)

/-- Settles O7: each head of the list of moves gives the turn to its agent, and an idle engine has no step on its turn. -/
theorem otherAgentsMoveAndIdleEngineDoesNot : Obligations.OtherAgentsMoveAndIdleEngineDoesNot := by
  intro s ts
  refine ⟨fun a => step_host, fun w => step_deliver, fun hb h => step_wait_idle h hb, fun hb => ?idle⟩
  case idle =>
    rintro (h | h)
    · exact (step_engine (State.engineTurn_of_no_turns h)).trans (engineStep_idle hb)
    · exact (step_engine (State.engineTurn_of_engine h)).trans (engineStep_idle hb)

/-- Settles O8: placing a word accepts it and gives the engine the turn. -/
theorem placedWordRunsNext : Obligations.PlacedWordRunsNext := by
  intro s w i hd
  have hword : BitVec.ofNat 32 (w.toNat % 2 ^ 32) = w := by
    rw [Nat.mod_eq_of_lt w.isLt, BitVec.ofNat_toNat, BitVec.setWidth_eq]
  rw [State.withFetchWord, hword]
  have hturn : (s.launch w).engineTurn = some (s.accept w) := State.engineTurn_of_engine rfl
  exact (step_engine hturn).trans (engineStep_command rfl hd)

/-- Settles O22: a read is its reply, and a write that ends in a BusError has not reached a location. -/
theorem readsAndBusErrorsChangeNothing : Obligations.ReadsAndBusErrorsChangeNothing := by
  intro s addr n v ts
  refine ⟨fun h => step_host h, fun h hreply => ?write⟩
  case write =>
    rw [step_host h, State.access]
    cases ht : s.target addr n with
    | ok l =>
      rw [State.memWrite_ok ht] at hreply
      cases hreply
    | error r =>
      have herror : State.target { s with turns := ts } addr n = .error r := ht
      rw [State.memWrite_error ht] at hreply
      rw [State.memWrite_error herror, show r = .busError from hreply]

/-- Settles O25: the four outcomes of a command's step; a command that takes the last word of the source has asked for it. -/
theorem commandStepIsHoldDrawOrCompletion : Obligations.CommandStepIsHoldDrawOrCompletion := by
  intro i s
  refine ⟨?outcomes, fun w t hrnd h ht => ?hold⟩
  case outcomes =>
    have houtcome := exec_outcome i s
    generalize exec i s = r at houtcome
    cases houtcome with
    | hold hi hrnd => exact .inl ⟨rfl, hrnd, hi⟩
    | draw hi hrnd => exact .inr (.inl ⟨_, _, hrnd, hi, rfl⟩)
    | raise e => exact .inr (.inr ⟨_, rfl, rfl, rfl, rfl, rfl, rfl, rfl, rfl, rfl, rfl, rfl, rfl⟩)
    | finish hu =>
      rw [hu]
      exact .inr (.inr ⟨_, rfl, rfl, rfl, rfl, rfl, rfl, rfl, rfl, rfl, rfl, rfl, rfl⟩)
  case hold =>
    by_cases hasks : Asks i s
    · rw [exec_of_asks hasks, drawWord_hold hrnd]
    · have hone : ¬ Asks i { s with rnd := [w] } := mt (asks_source i [w] s.rndcnt).mp hasks
      obtain ⟨t', ht', hkept⟩ := exec_of_not_asks hone
      cases h.symm.trans ht'
      cases ht.symm.trans hkept

/-- Settles O31: a hold without words is a draw when there are some, so every word but those already drawn costs one draw. -/
theorem smallStepsAreTheBigStep : Obligations.SmallStepsAreTheBigStep := by
  intro s t i ws more hb hturns hdrawn hd hrnd hholds hends _
  have hstart : s.afterDraws [] (ws ++ more) = s := by
    have hcount : s.rndcnt + BitVec.ofNat 32 ([] : List Word).length = s.rndcnt := BitVec.add_zero _
    rw [State.afterDraws, hcount, ← hrnd, ← hdrawn]
  have hrun := run_afterDraws (p := []) (q := ws) hb hturns hd (fun p q hpq hq => ?asks) hends
  case asks =>
    have hask : Asks i { s with drawn := p, rnd := [] } := asks_of_exec_hold (hholds p q hpq hq)
    exact hask
  rwa [hstart] at hrun

end Sys2Proof.Machine
end

section
/-! PROOFS. Evaluations that draw (46_miller_rabin.md R176 to R186, 20_memory.md R66): a notion of an evaluation that takes its
words from the front of a list and no more of them than it needs, closed under sequencing and under retrying; `isprime` and
`makeprime` are built by these two, and the two rejection loops are the same search with another attempt. -/

namespace Sys2Proof.Machine

/-! ## Taking words from the front of the list -/

section
variable {α β : Type}

/-- The evaluation takes words from the front of the list, does not look at those behind, and asks for a word only if it then
uses it. -/
structure Draws (f : List Word → Option (α × List Word)) : Prop where
  shrink : ∀ {ws rest : List Word} {a : α}, f ws = some (a, rest) → rest.length ≤ ws.length
  append : ∀ {ws rest : List Word} {a : α} (more : List Word), f ws = some (a, rest) → f (ws ++ more) = some (a, rest ++ more)
  tight : ∀ {ws rest : List Word} {w : Word} {a : α}, f ws = none → f (ws ++ [w]) = some (a, rest) → rest = []

theorem Draws.congr {f g : List Word → Option (α × List Word)} (h : Draws f) (hfg : ∀ ws, g ws = f ws) : Draws g :=
  (funext hfg : g = f) ▸ h

theorem Draws.never : Draws fun _ => (none : Option (α × List Word)) where
  shrink h := nomatch h
  append _ h := nomatch h
  tight _ h := nomatch h

theorem Draws.pure (a : α) : Draws fun ws => some (a, ws) where
  shrink h := by
    cases h
    exact le_rfl
  append _ h := by
    cases h
    rfl
  tight h := nomatch h

/-- Sequencing: the second evaluation works on what the first has left. -/
theorem Draws.bind {f : List Word → Option (α × List Word)} {g : α → List Word → Option (β × List Word)} (hf : Draws f)
    (hg : ∀ a, Draws (g a)) : Draws fun ws => (f ws).bind fun p => g p.1 p.2 where
  shrink h := by
    obtain ⟨⟨a, mid⟩, hfirst, hsecond⟩ := Option.bind_eq_some_iff.mp h
    exact ((hg a).shrink hsecond).trans (hf.shrink hfirst)
  append more h := by
    obtain ⟨⟨a, mid⟩, hfirst, hsecond⟩ := Option.bind_eq_some_iff.mp h
    exact Option.bind_eq_some_iff.mpr ⟨_, hf.append more hfirst, (hg a).append more hsecond⟩
  tight := by
    intro ws rest w b hnone hsome
    obtain ⟨⟨a, mid⟩, hfirst, hsecond⟩ := Option.bind_eq_some_iff.mp hsome
    cases hshort : f ws with
    | none =>
      obtain rfl : mid = [] := hf.tight hshort hfirst
      exact List.length_eq_zero_iff.mp (Nat.le_zero.mp ((hg a).shrink hsecond))
    | some p =>
      rw [hshort, Option.bind_some] at hnone
      cases (hf.append [w] hshort).symm.trans hfirst
      exact (hg p.1).tight hnone hsecond

theorem Draws.map {f : List Word → Option (α × List Word)} (hf : Draws f) (g : α → β) :
    Draws fun ws => (f ws).bind fun p => some (g p.1, p.2) :=
  hf.bind fun a => .pure (g a)

theorem Draws.ite {c : Prop} [Decidable c] {f g : List Word → Option (α × List Word)} (hf : Draws f) (hg : Draws g) :
    Draws fun ws => if c then f ws else g ws := by
  split
  · exact hf
  · exact hg

end

/-! ## Retrying -/

section
variable {α : Type} {attempt : List Word → Option (Option α × List Word)}

/-- Attempts, at most as many as the fuel, until one has a result. -/
def retry (attempt : List Word → Option (Option α × List Word)) : Nat → List Word → Option (α × List Word)
  | 0, _ => none
  | f + 1, ws => (attempt ws).bind fun p => p.1.elim (retry attempt f p.2) fun a => some (a, p.2)

/-- Attempts until one has a result, on the fuel the model's loops have. -/
def search (attempt : List Word → Option (Option α × List Word)) (ws : List Word) : Option (α × List Word) :=
  retry attempt (ws.length + 1) ws

/-- A failed attempt has used a word, so the fuel does not end the search. -/
def FailuresUseWords (attempt : List Word → Option (Option α × List Word)) : Prop :=
  ∀ ws rest, attempt ws = some (none, rest) → rest.length < ws.length

theorem retry_fuel (hfail : FailuresUseWords attempt) {f g : Nat} {ws : List Word} (hf : ws.length < f)
    (hg : ws.length < g) : retry attempt f ws = retry attempt g ws := by
  induction f generalizing g ws with
  | zero => exact absurd hf (Nat.not_lt_zero _)
  | succ f ih =>
    obtain ⟨g, rfl⟩ : ∃ k, g = k + 1 := ⟨g - 1, by omega⟩
    rw [retry, retry]
    match hfirst : attempt ws with
    | none => rfl
    | some (some a, rest) => rfl
    | some (none, rest) =>
      have hless := hfail ws rest hfirst
      exact ih (hless.trans_le (Nat.le_of_lt_succ hf)) (hless.trans_le (Nat.le_of_lt_succ hg))

theorem search_eq_none {ws : List Word} (h : attempt ws = none) : search attempt ws = none := by
  rw [search, retry, h, Option.bind_none]

theorem search_eq_some {ws rest : List Word} {a : α} (h : attempt ws = some (some a, rest)) :
    search attempt ws = some (a, rest) := by
  rw [search, retry, h]
  rfl

theorem search_again (hfail : FailuresUseWords attempt) {ws rest : List Word} (h : attempt ws = some (none, rest)) :
    search attempt ws = search attempt rest := by
  have hless := hfail ws rest h
  rw [search, retry, h]
  exact retry_fuel hfail hless (Nat.lt_succ_self _)

/-- What a search answers, one of its attempts has answered. -/
theorem exists_attempt_of_retry {f : Nat} {ws rest : List Word} {a : α} (h : retry attempt f ws = some (a, rest)) :
    ∃ ws', attempt ws' = some (some a, rest) := by
  induction f generalizing ws with
  | zero => cases h
  | succ f ih =>
    obtain ⟨⟨o, mid⟩, hfirst, hthen⟩ := Option.bind_eq_some_iff.mp h
    cases o with
    | none => exact ih hthen
    | some b =>
      cases hthen
      exact ⟨ws, hfirst⟩

theorem Draws.retry (h : Draws attempt) (f : Nat) : Draws (retry attempt f) := by
  induction f with
  | zero => exact .never
  | succ f ih =>
    refine h.bind (g := fun o ws => o.elim (Machine.retry attempt f ws) fun a => some (a, ws)) fun o => ?_
    cases o with
    | none => exact ih
    | some a => exact .pure a

theorem Draws.search (h : Draws attempt) (hfail : FailuresUseWords attempt) : Draws (search attempt) where
  shrink := (h.retry _).shrink
  append {ws rest a} more hsome := by
    have hfuel : Machine.search attempt ws = Machine.retry attempt ((ws ++ more).length + 1) ws :=
      retry_fuel hfail (Nat.lt_succ_self _) (by rw [List.length_append]; omega)
    exact (h.retry _).append more (hfuel.symm.trans hsome)
  tight {ws rest w a} hnone hsome := by
    have hfuel : Machine.search attempt ws = Machine.retry attempt ((ws ++ [w]).length + 1) ws :=
      retry_fuel hfail (Nat.lt_succ_self _) (by rw [List.length_append]; omega)
    exact (h.retry _).tight (hfuel.symm.trans hnone) hsome

end

/-! ## DrawBits and DrawBelow (R177, R178) -/

theorem Draws.drawBits (k : Nat) : Draws (drawBits k) where
  shrink h := by
    have := drawBits_length h
    omega
  append _ h := drawBits_append h
  tight {ws rest w v} hnone hsome := by
    have hlength := drawBits_length hsome
    have hshort : ws.length < (k + 31) / 32 := by
      by_contra henough
      cases hnone.symm.trans (drawBits_eq_some (Nat.not_lt.mp henough))
    rw [List.length_append, List.length_singleton] at hlength
    exact List.length_eq_zero_iff.mp (by omega)

/-- One try of DrawBelow: a result if it is below m (R178). -/
def belowAttempt (m k : Nat) (ws : List Word) : Option (Option Nat × List Word) :=
  (drawBits k ws).bind fun p => some (if p.1 < m then some p.1 else none, p.2)

section
variable {m k v : Nat} {ws rest : List Word}

theorem drawBelowLoop_eq_retry (f m k : Nat) (ws : List Word) : drawBelowLoop f m k ws = retry (belowAttempt m k) f ws := by
  induction f generalizing ws with
  | zero => rfl
  | succ f ih =>
    rw [drawBelowLoop, retry, belowAttempt]
    match drawBits k ws with
    | none => rfl
    | some (v, rest) => by_cases hv : v < m <;> simp [hv, ih]

theorem drawBelow_eq_search (m : Nat) (ws : List Word) : drawBelow m ws = search (belowAttempt m (bitlen (m - 1))) ws :=
  drawBelowLoop_eq_retry _ _ _ ws

theorem belowAttempt_of_lt (h : drawBits k ws = some (v, rest)) (hv : v < m) : belowAttempt m k ws = some (some v, rest) := by
  rw [belowAttempt, h, Option.bind_some, if_pos hv]

theorem belowAttempt_of_le (h : drawBits k ws = some (v, rest)) (hv : m ≤ v) : belowAttempt m k ws = some (none, rest) := by
  rw [belowAttempt, h, Option.bind_some, if_neg (Nat.not_lt.mpr hv)]

/-- A number that is not below `m >= 1` has a bit, so it has cost a word. -/
theorem belowAttempt_failures (hm : 1 ≤ m) : FailuresUseWords (belowAttempt m k) := by
  intro ws rest h
  obtain ⟨⟨v, rest'⟩, hdraw, htest⟩ := Option.bind_eq_some_iff.mp h
  split at htest
  case isTrue => cases htest
  case isFalse hge =>
    cases htest
    have hk : k ≠ 0 := by
      rintro rfl
      have hv : v < 2 ^ 0 := drawBits_lt hdraw
      omega
    have hlength := drawBits_length hdraw
    show rest'.length < ws.length
    omega

theorem drawBelow_lt (h : drawBelow m ws = some (v, rest)) : v < m := by
  rw [drawBelow_eq_search] at h
  obtain ⟨ws', hattempt⟩ := exists_attempt_of_retry h
  obtain ⟨⟨v', rest'⟩, -, htest⟩ := Option.bind_eq_some_iff.mp hattempt
  split at htest
  case isTrue hlt =>
    cases htest
    exact hlt
  case isFalse => cases htest

theorem Draws.drawBelow (hm : 1 ≤ m) : Draws (drawBelow m) :=
  (((Draws.drawBits _).map fun v => if v < m then some v else none).search (belowAttempt_failures hm)).congr
    (drawBelow_eq_search m)

end

/-! ## The rounds of `isprime` (R180) -/

theorem rounds_succ (n r s it : Nat) (ws : List Word) :
    rounds n r s (it + 1) ws = (drawBelow (n - 3) ws).bind fun p =>
      if roundPasses n r s (2 + p.1) then rounds n r s it p.2 else some (false, p.2) := by
  rw [rounds]
  cases drawBelow (n - 3) ws <;> rfl

theorem Draws.rounds {n : Nat} (hn : 5 ≤ n) (r s it : Nat) : Draws (rounds n r s it) := by
  induction it with
  | zero => exact .pure true
  | succ it ih =>
    have hwitness : Draws (Machine.drawBelow (n - 3)) := .drawBelow (by omega)
    exact (hwitness.bind (g := fun v ws => if roundPasses n r s (2 + v) then Machine.rounds n r s it ws else some (false, ws))
      fun v => .ite ih (.pure false)).congr (rounds_succ n r s it)

/-- The three ways into `isprime`. -/
theorem isPrime_input_cases (n : Nat) : (n < 2 ∨ (n % 2 = 0 ∧ n ≠ 2)) ∨ (n = 2 ∨ n = 3) ∨ (5 ≤ n ∧ n % 2 = 1) := by omega

theorem Draws.isPrime (n it : Nat) : Draws (isPrime n it) := by
  obtain hcomposite | hsmall | ⟨hn, hodd⟩ := isPrime_input_cases n
  · exact (Draws.pure false).congr fun ws => isPrime_of_lt_two_or_even it ws hcomposite
  · exact (Draws.pure true).congr fun ws => isPrime_of_two_or_three it ws hsmall
  · exact (Draws.rounds hn _ _ it).congr fun ws => isPrime_eq_rounds it ws hn hodd

/-! ## The prime search (R183, R185) -/

/-- One candidate and its test: a result if it is accepted (R185). -/
def primeAttempt (bits it : Nat) (ws : List Word) : Option (Option Nat × List Word) :=
  (candidate bits ws).bind fun p => (isPrime p.1 it p.2).bind fun q => some (if q.1 then some p.1 else none, q.2)

section
variable {bits it c : Nat} {ws rest rest' : List Word}

theorem makePrimeLoop_eq_retry (f bits it : Nat) (ws : List Word) :
    makePrimeLoop f bits it ws = retry (primeAttempt bits it) f ws := by
  induction f generalizing ws with
  | zero => rfl
  | succ f ih =>
    rw [makePrimeLoop, retry, primeAttempt]
    match candidate bits ws with
    | none => rfl
    | some (c, rest) =>
      simp only [Option.bind_some]
      match isPrime c it rest with
      | none => rfl
      | some (true, rest') => rfl
      | some (false, rest') => exact ih rest'

theorem makePrime_eq_search (bits it : Nat) (ws : List Word) : makePrime bits it ws = search (primeAttempt bits it) ws :=
  makePrimeLoop_eq_retry _ _ _ ws

theorem candidate_eq_bind (bits : Nat) (ws : List Word) :
    candidate bits ws = (drawBits (bits - 1) ws).bind fun p => some (2 ^ (bits - 1) + p.1, p.2) := by
  rw [candidate, Option.map_eq_bind]
  rfl

theorem Draws.candidate (bits : Nat) : Draws (candidate bits) :=
  ((Draws.drawBits (bits - 1)).map _).congr (candidate_eq_bind bits)

theorem candidate_bounds (hbits : 1 ≤ bits) (h : candidate bits ws = some (c, rest)) : 2 ^ (bits - 1) ≤ c ∧ c < 2 ^ bits := by
  rw [candidate_eq_bind] at h
  obtain ⟨⟨v, rest'⟩, hdraw, hc⟩ := Option.bind_eq_some_iff.mp h
  cases hc
  exact ⟨Nat.le_add_right _ _, two_pow_pred_add_lt hbits (drawBits_lt hdraw)⟩

/-- A candidate of two bits or more has cost a word. -/
theorem candidate_length_lt (hbits : 2 ≤ bits) (h : candidate bits ws = some (c, rest)) : rest.length < ws.length := by
  rw [candidate_eq_bind] at h
  obtain ⟨⟨v, rest'⟩, hdraw, hc⟩ := Option.bind_eq_some_iff.mp h
  cases hc
  have hlength := drawBits_length hdraw
  show rest'.length < ws.length
  omega

theorem primeAttempt_of_candidate {o : Option (Bool × List Word)} (hc : candidate bits ws = some (c, rest))
    (ho : isPrime c it rest = o) :
    primeAttempt bits it ws = o.bind fun q => some (if q.1 then some c else none, q.2) := by
  rw [primeAttempt, hc, Option.bind_some, ho]

theorem primeAttempt_failures (hbits : 2 ≤ bits) : FailuresUseWords (primeAttempt bits it) := by
  intro ws rest h
  obtain ⟨⟨c, mid⟩, hc, htest⟩ := Option.bind_eq_some_iff.mp h
  obtain ⟨⟨b, rest'⟩, hprime, hb⟩ := Option.bind_eq_some_iff.mp htest
  cases b with
  | true => cases hb
  | false =>
    cases hb
    exact ((Draws.isPrime c it).shrink hprime).trans_lt (candidate_length_lt hbits hc)

theorem Draws.makePrime (hbits : 2 ≤ bits) : Draws (makePrime bits it) := by
  have hattempt : Draws (primeAttempt bits it) :=
    (Draws.candidate bits).bind (g := fun c ws => (Machine.isPrime c it ws).bind fun q => some (if q.1 then some c else none, q.2))
      fun c => (Draws.isPrime c it).map fun accepted => if accepted then some c else none
  exact (hattempt.search (primeAttempt_failures hbits)).congr (makePrime_eq_search bits it)

theorem makePrime_bounds (hbits : 1 ≤ bits) (h : makePrime bits it ws = some (c, rest)) :
    2 ^ (bits - 1) ≤ c ∧ c < 2 ^ bits := by
  rw [makePrime_eq_search] at h
  obtain ⟨ws', hattempt⟩ := exists_attempt_of_retry h
  obtain ⟨⟨c', mid⟩, hc, htest⟩ := Option.bind_eq_some_iff.mp hattempt
  obtain ⟨⟨b, rest'⟩, -, hb⟩ := Option.bind_eq_some_iff.mp htest
  cases b with
  | false => cases hb
  | true =>
    cases hb
    exact candidate_bounds hbits hc

end

/-! ## The statements -/

/-- Settles O52: the list is long enough for the words or it is not. -/
theorem drawBitsAssemblesLittleEndian : Obligations.DrawBitsAssemblesLittleEndian :=
  fun _ _ => ⟨drawBits_eq_none, drawBits_eq_some⟩

/-- Settles O53: the least k is the bit length of `m - 1`, and DrawBelow is the search with tries of k bits. -/
theorem drawBelowRetriesUntilBelow : Obligations.DrawBelowRetriesUntilBelow := by
  intro m k v ws rest hm hk hleast
  obtain rfl : bitlen (m - 1) = k := le_antisymm (bitlen_le_of_lt hk) (hleast _ (lt_two_pow_bitlen _))
  refine ⟨fun h => ?none, fun h hv => ?below, fun h hv => ?notBelow, drawBelow_lt⟩
  all_goals simp only [drawBelow_eq_search]
  case none => exact search_eq_none (by rw [belowAttempt, h, Option.bind_none])
  case below => exact search_eq_some (belowAttempt_of_lt h hv)
  case notBelow => exact search_again (belowAttempt_failures hm) (belowAttempt_of_le h hv)

/-- Settles O32: both evaluations are built from draws by sequencing and retrying. -/
theorem engineDrawsExactlyTheWordsItUses : Obligations.EngineDrawsExactlyTheWordsItUses := by
  refine ⟨fun n it ws more r h => ?_, fun n it ws w r h h' => ?_, fun bits it ws more r hbits h => ?_,
    fun bits it ws w r hbits h h' => ?_⟩
  · exact (Draws.isPrime n it).append more h
  · exact (Draws.isPrime n it).tight h h'
  · exact (Draws.makePrime hbits).append more h
  · exact (Draws.makePrime hbits).tight h h'

/-- Settles O59: makeprime is the search whose attempt is a candidate and its test. -/
theorem makeprimeSearchesCandidates : Obligations.MakeprimeSearchesCandidates := by
  intro bits it c ws rest rest' hbits
  simp only [makePrime_eq_search]
  refine ⟨fun hnone => search_eq_none ?_, fun hc => ⟨fun h => search_eq_none ?_, fun h => search_eq_some ?_,
    fun h => search_again (primeAttempt_failures hbits) ?_⟩⟩
  · rw [primeAttempt, hnone, Option.bind_none]
  · exact primeAttempt_of_candidate hc h
  · exact primeAttempt_of_candidate hc h
  · exact primeAttempt_of_candidate hc h

/-- Settles O60: for a legal count the search on the words drawn has a result, which has exactly that many bits, or asks for a
word. -/
theorem makeprimeWritesAnAcceptedNumber : Obligations.MakeprimeWritesAnAcceptedNumber := by
  intro s rd ra imm himm
  refine ⟨?word, exec_makeprime_of_illegal_count rd imm, fun h2 hW => ⟨fun c rest h => ?result, fun h w ws hrnd => ?draw⟩⟩
  case word => exact onlyWordOf_encode (i := .makeprime rd ra imm) (decide_eq_true himm)
  case result =>
    obtain ⟨hlo, hhi⟩ := makePrime_bounds (one_le_two.trans h2) h
    exact ⟨hlo, hhi, exec_makeprime_of_some rd h2 hW h⟩
  case draw => exact (exec_makeprime_of_none rd h2 hW h).trans (drawWord_draw hrnd)

end Sys2Proof.Machine
end

section
/-! PROOFS. The verdicts of the primality test (46_miller_rabin.md R180, R181) and RSA (45_modexp.md R171): the squarings of a
round end in the closed form of R181, which every witness of a prime modulus meets, and a power with exponent 1 modulo
`(p - 1)(q - 1)` is the number itself modulo both primes. -/

namespace Sys2Proof.Machine

/-! ## The closed form of a round (R181) -/

/-- The condition of R181 on a witness: `a^r` is 1, or one of its squarings before the last is -1. -/
def PassesClosedForm (n r s a : Nat) : Prop := a ^ r % n = 1 ∨ ∃ j, j ≤ s - 1 ∧ a ^ (r * 2 ^ j) % n = n - 1

/-- The squarings meet `n - 1` at the first of them or among the rest. -/
theorem exists_squaring_succ {n k y : Nat} :
    (∃ j, j ≤ k + 1 ∧ y ^ 2 ^ j % n = n - 1) ↔ y % n = n - 1 ∨ ∃ j, j ≤ k ∧ (y * y % n) ^ 2 ^ j % n = n - 1 := by
  have hsquare (j : Nat) : y ^ 2 ^ (j + 1) % n = (y * y % n) ^ 2 ^ j % n := by
    rw [← Nat.pow_mod, ← pow_two, ← pow_mul, ← pow_succ']
  constructor
  · rintro ⟨j, hj, h⟩
    cases j with
    | zero => exact .inl (by simpa using h)
    | succ j => exact .inr ⟨j, by omega, hsquare j ▸ h⟩
  · rintro (h | ⟨j, hj, h⟩)
    · exact ⟨0, Nat.zero_le _, by simpa using h⟩
    · exact ⟨j + 1, by omega, (hsquare j).trans h⟩

section
variable {n : Nat} (hn : 3 ≤ n)
include hn

/-- Once a squaring is 1, all later ones are, so the loop may stop there. -/
theorem squareLoop_iff {k y : Nat} (hy : y < n) : squareLoop n k y = true ↔ ∃ j, j ≤ k ∧ y ^ 2 ^ j % n = n - 1 := by
  induction k generalizing y with
  | zero =>
    rw [squareLoop, decide_eq_true_iff]
    simp [Nat.mod_eq_of_lt hy]
  | succ k ih =>
    rw [exists_squaring_succ, Nat.mod_eq_of_lt hy, squareLoop]
    by_cases hlast : y = n - 1
    · simp [hlast]
    · rw [if_neg hlast]
      by_cases hone : y * y % n = 1
      · have hrest : 1 % n ≠ n - 1 := by
          rw [Nat.mod_eq_of_lt (by omega)]
          omega
        simp [hone, hlast, hrest]
      · rw [if_neg hone, ih (Nat.mod_lt _ (by omega)), or_iff_right hlast]

theorem roundPasses_iff (r s a : Nat) : roundPasses n r s a = true ↔ PassesClosedForm n r s a := by
  have hpow (j : Nat) : (a ^ r % n) ^ 2 ^ j % n = a ^ (r * 2 ^ j) % n := by rw [← Nat.pow_mod, pow_mul]
  have hloop := squareLoop_iff hn (k := s - 1) (y := a ^ r % n) (Nat.mod_lt _ (by omega))
  simp only [hpow] at hloop
  rw [roundPasses, PassesClosedForm, powerMod_eq_pow_mod, ← hloop]
  by_cases hone : a ^ r % n = 1
  · simp [hone]
  · by_cases hlast : a ^ r % n = n - 1
    · have hfirst : squareLoop n (s - 1) (n - 1) = true := (squareLoop_iff hn (by omega)).mpr ⟨0, Nat.zero_le _, by
        rw [pow_zero, pow_one, Nat.mod_eq_of_lt (by omega)]⟩
      simp [hlast, hfirst]
    · simp [hone, hlast]

end

/-- One iteration on odd n >= 5, in terms of the odd part and the exponent of `n - 1`. -/
theorem isPrime_succ {n r s : Nat} (it : Nat) (ws : List Word) (hn : 5 ≤ n) (hodd : n % 2 = 1) (hr : r % 2 = 1)
    (hsplit : n - 1 = r * 2 ^ s) : isPrime n (it + 1) ws = (drawBelow (n - 3) ws).bind fun p =>
      if roundPasses n r s (2 + p.1) then isPrime n it p.2 else some (false, p.2) := by
  simp only [isPrime_eq_rounds _ _ hn hodd, factor_eq hr hsplit, rounds_succ]

/-! ## A prime modulus passes every round (R181) -/

/-- In a ring without zero divisors the square roots of 1 are 1 and -1, so a power that is 1 after s squarings was 1 at the
start or -1 on the way. -/
theorem eq_one_or_exists_squaring_eq_neg_one {R : Type} [CommRing R] [NoZeroDivisors R] {x : R} {s : Nat}
    (h : x ^ 2 ^ s = 1) : x = 1 ∨ ∃ j, j ≤ s - 1 ∧ x ^ 2 ^ j = -1 := by
  induction s with
  | zero => exact .inl (by simpa using h)
  | succ s ih =>
    rw [pow_succ, pow_mul, pow_two] at h
    obtain hone | hneg := mul_self_eq_one_iff.mp h
    · obtain hx | ⟨j, hj, hx⟩ := ih hone
      · exact .inl hx
      · exact .inr ⟨j, by omega, hx⟩
    · exact .inr ⟨s, by omega, hneg⟩

theorem passesClosedForm_of_prime {n r s a : Nat} (hn : n.Prime) (hsplit : n - 1 = r * 2 ^ s) (ha : ¬ n ∣ a) :
    PassesClosedForm n r s a := by
  have : Fact n.Prime := ⟨hn⟩
  have hbase : (a : ZMod n) ≠ 0 := fun h => ha ((ZMod.natCast_eq_zero_iff a n).mp h)
  have hfermat : ((a : ZMod n) ^ r) ^ 2 ^ s = 1 := by
    rw [← pow_mul, ← hsplit, ZMod.pow_card_sub_one_eq_one hbase]
  have hresidue (e c : Nat) (hc : c < n) (h : (a : ZMod n) ^ e = c) : a ^ e % n = c := by
    rw [← Nat.cast_pow, ZMod.natCast_eq_natCast_iff'] at h
    rw [h, Nat.mod_eq_of_lt hc]
  have hneg : ((n - 1 : Nat) : ZMod n) = -1 := by
    rw [Nat.cast_sub hn.one_le, ZMod.natCast_self, Nat.cast_one, zero_sub]
  obtain hone | ⟨j, hj, hx⟩ := eq_one_or_exists_squaring_eq_neg_one hfermat
  · exact .inl (hresidue r 1 hn.one_lt (by rw [hone, Nat.cast_one]))
  · refine .inr ⟨j, hj, hresidue (r * 2 ^ j) (n - 1) (Nat.sub_lt hn.pos one_pos) ?_⟩
    rw [pow_mul, hx, hneg]

/-- A witness lies between 2 and n - 2, so a prime does not divide it. -/
theorem rounds_of_prime {n r s it : Nat} {ws : List Word} {v : Bool × List Word} (hn : n.Prime) (h3 : 3 ≤ n)
    (hsplit : n - 1 = r * 2 ^ s) (h : rounds n r s it ws = some v) : v.1 = true := by
  induction it generalizing ws with
  | zero =>
    cases h
    rfl
  | succ it ih =>
    rw [rounds_succ] at h
    obtain ⟨⟨a, rest⟩, hdraw, hround⟩ := Option.bind_eq_some_iff.mp h
    have hbelow : a < n - 3 := drawBelow_lt hdraw
    have ha : ¬ n ∣ 2 + a := Nat.not_dvd_of_pos_of_lt (by omega) (by omega)
    have hpasses : roundPasses n r s (2 + a) = true := (roundPasses_iff h3 r s _).mpr (passesClosedForm_of_prime hn hsplit ha)
    rw [if_pos hpasses] at hround
    exact ih hround

theorem isPrime_of_prime {n it : Nat} {ws : List Word} {v : Bool × List Word} (hn : n.Prime)
    (h : isPrime n it ws = some v) : v.1 = true := by
  obtain hcomposite | hsmall | ⟨h5, hodd⟩ := isPrime_input_cases n
  · have htwo := hn.two_le
    have hparity := hn.eq_two_or_odd
    omega
  · rw [isPrime_of_two_or_three it ws hsmall] at h
    cases h
    rfl
  · obtain ⟨-, -, hsplit, -⟩ := factorSplitsOffThePowerOfTwo n hodd (by omega)
    exact rounds_of_prime hn (by omega) hsplit ((isPrime_eq_rounds it ws h5 hodd).symm.trans h)

/-! ## RSA (45_modexp.md R171) -/

/-- The little theorem of Fermat for every number, also one that p divides. -/
theorem pow_modEq_self_of_prime {p k m N : Nat} (hp : p.Prime) (hN : N = (p - 1) * k + 1) : m ^ N ≡ m [MOD p] := by
  have : Fact p.Prime := ⟨hp⟩
  rw [← ZMod.natCast_eq_natCast_iff, Nat.cast_pow, hN, pow_succ, pow_mul]
  by_cases hm : (m : ZMod p) = 0
  · rw [hm, mul_zero]
  · rw [ZMod.pow_card_sub_one_eq_one hm, one_pow, one_mul]

/-! ## The statements -/

/-- Settles O55: one round draws a witness, and passing it is the closed form. -/
theorem primalityTestRunsItsRounds : Obligations.PrimalityTestRunsItsRounds := by
  intro n r s it v ws rest hn hodd hr hsplit
  have hround := isPrime_succ it ws hn hodd hr hsplit
  have hpasses := roundPasses_iff (show 3 ≤ n by omega) r s (2 + v)
  refine ⟨isPrime_zero_iterations ws hn hodd, fun hdraw => ?noWords, fun hdraw h => ?passes, fun hdraw h => ?rejects⟩
  all_goals rw [hround, hdraw]
  case noWords => rfl
  case passes => exact if_pos (hpasses.mpr h)
  case rejects => exact if_neg (mt hpasses.mp h)

/-- Settles O56: no round rejects a prime; the second clause is the first read backwards. -/
theorem compositeVerdictIsAlwaysRight : Obligations.CompositeVerdictIsAlwaysRight := by
  intro n it ws v h
  refine ⟨fun hn => isPrime_of_prime hn h, fun hfalse hn => ?_⟩
  exact absurd (isPrime_of_prime hn h) (ne_true_of_eq_false hfalse)

/-- Settles O51: both powers are one power, with an exponent that is 1 modulo `p - 1` and modulo `q - 1`, and the primes are
coprime. -/
theorem decryptionUndoesEncryption : Obligations.DecryptionUndoesEncryption := by
  intro p q e d m hp hq hpq hed hm
  have hexp : e * d = (p - 1) * (q - 1) * (e * d / ((p - 1) * (q - 1))) + 1 := by
    conv_lhs => rw [← Nat.div_add_mod (e * d) ((p - 1) * (q - 1)), hed]
  have hmodp : m ^ (e * d) ≡ m [MOD p] := pow_modEq_self_of_prime hp (by rw [← mul_assoc]; exact hexp)
  have hmodq : m ^ (e * d) ≡ m [MOD q] := pow_modEq_self_of_prime hq (by rw [← mul_assoc, mul_comm (q - 1)]; exact hexp)
  have hmod : m ^ (e * d) ≡ m [MOD p * q] :=
    (Nat.modEq_and_modEq_iff_modEq_mul ((Nat.coprime_primes hp hq).mpr hpq)).mp ⟨hmodp, hmodq⟩
  rw [powerMod_eq_pow_mod, powerMod_eq_pow_mod, ← Nat.pow_mod, ← pow_mul]
  exact Eq.trans hmod (Nat.mod_eq_of_lt hm)

end Sys2Proof.Machine
end

section
/-! PROOFS. What every step keeps (10_state.md sections 1, 2, 4, 6 and 7): one rule per update of the state for the invariant and
one per command for what it writes, then a step by the agent that moves, and the statements. -/

namespace Sys2Proof.Machine

/-! ## Properties of the next state of a command -/

/-- The step answers no next state without the property. -/
def NextSatisfies (P : State → Prop) (r : Result) : Prop := ∀ t, r = .next t → P t

section
variable {P : State → Prop} {s : State}

theorem NextSatisfies.next {t : State} (h : P t) : NextSatisfies P (.next t) := by
  rintro _ ⟨⟩
  exact h

theorem NextSatisfies.complete {u : State} (h : P u.finish) : NextSatisfies P (complete u) := .next h

theorem NextSatisfies.drawing {α : Type} {o : Option (α × List Word)} {k : α → Result}
    (hdraw : ∀ w ws, P { s with rnd := ws, drawn := s.drawn ++ [w], rndcnt := s.rndcnt + 1 })
    (h : ∀ a rest, o = some (a, rest) → NextSatisfies P (k a)) : NextSatisfies P (drawing o s k) := by
  match o with
  | some (a, rest) => exact h a rest rfl
  | none =>
    rw [drawing_none]
    intro t ht
    obtain ⟨w, ws, -, rfl⟩ := drawWord_next ht
    exact hdraw w ws

section
variable (hraise : ∀ e, P (s.raise e))
include hraise

theorem NextSatisfies.check {c : Prop} [Decidable c] {r : Result} (e : Err) (h : ¬ c → NextSatisfies P r) :
    NextSatisfies P (if c then raiseError e s else r) := by
  split
  case isTrue => exact .next (hraise e)
  case isFalse hc => exact h hc

theorem NextSatisfies.writeExact (rd : Reg) (v : Nat) (h : v < 2 ^ s.width → P (s.setReg rd v).finish) :
    NextSatisfies P (writeExact rd v s) := by
  by_cases hv : v < 2 ^ s.width
  · rw [writeExact_fits rd v s hv]
    exact .next (h hv)
  · rw [writeExact_overflows rd v s (Nat.not_lt.mp hv)]
    exact .next (hraise .overflow)

end

end

/-! ## The invariant, one rule per update -/

section
variable {s : State} (h : Inv s)
include h

/-- The fields that the invariant does not speak of. -/
theorem Inv.environment {cmd rndcnt : Word} {ovr ie : Bool} {rnd : List Word} {turns : List Turn} {reply : Option BusReply} :
    Inv { s with cmd := cmd, rndcnt := rndcnt, ovr := ovr, ie := ie, rnd := rnd, turns := turns, reply := reply } :=
  ⟨h.legal, h.regs, h.compare, h.inFlight, h.idle, h.errIff, h.codes, h.mont, h.bar⟩

theorem Inv.setReg (i : Reg) {v : Nat} (hv : v < 2 ^ s.width) : Inv (s.setReg i v) := by
  refine ⟨h.legal, fun j => ?_, h.compare, h.inFlight, h.idle, h.errIff, h.codes, h.mont, h.bar⟩
  rw [State.setReg_reg]
  split
  · exact hv
  · exact h.regs j

theorem Inv.setCompare (a b : Nat) : Inv (s.setCompare a b) := by
  refine ⟨h.legal, h.regs, ?_, h.inFlight, h.idle, h.errIff, h.codes, h.mont, h.bar⟩
  rintro ⟨heq, hlt⟩
  exact (of_decide_eq_true hlt).ne (of_decide_eq_true heq)

theorem Inv.setOdd (a : Nat) : Inv (s.setOdd a) :=
  ⟨h.legal, h.regs, h.compare, h.inFlight, h.idle, h.errIff, h.codes, h.mont, h.bar⟩

theorem Inv.setPrime (b : Bool) : Inv (s.setPrime b) :=
  ⟨h.legal, h.regs, h.compare, h.inFlight, h.idle, h.errIff, h.codes, h.mont, h.bar⟩

theorem Inv.setNone (b : Bool) : Inv (s.setNone b) :=
  ⟨h.legal, h.regs, h.compare, h.inFlight, h.idle, h.errIff, h.codes, h.mont, h.bar⟩

/-- The context of an odd modulus (R151). -/
theorem Inv.setMont {n : Nat} (hn : n < 2 ^ s.width) (hodd : n % 2 = 1) :
    Inv { s with mvalid := true, mn := n, mnp := (montSetup s.width n).2.1, mr2 := 2 ^ (2 * s.width) % n } := by
  refine ⟨h.legal, h.regs, h.compare, h.inFlight, h.idle, h.errIff, h.codes, ⟨hn, ?mr2, fun _ => ⟨hodd, ?mnp, rfl⟩, nofun⟩, h.bar⟩
  case mr2 => exact (Nat.mod_lt _ (by omega)).trans hn
  case mnp =>
    have hdvd := dvd_montSetup_np hodd s.width
    show (montSetup s.width n).2.1.toNat * n % 2 ^ 32 = 2 ^ 32 - 1
    omega

/-- The context of a modulus that is not 0 (R141). -/
theorem Inv.setBar {n : Nat} (hn : n < 2 ^ s.width) (hne : n ≠ 0) :
    Inv { s with bvalid := true, bn := n, bk := bitlen n, bmu := 2 ^ (2 * bitlen n) / n } := by
  have hk : bitlen n ≤ s.width := bitlen_le_of_lt hn
  have hlo : 2 ^ (bitlen n - 1) ≤ n := two_pow_le_of_bitlen hne
  refine ⟨h.legal, h.regs, h.compare, h.inFlight, h.idle, h.errIff, h.codes, h.mont,
    ⟨hn, hk, ?bmu, fun _ => ⟨Nat.one_le_iff_ne_zero.mpr hne, hlo, lt_two_pow_bitlen n, rfl⟩, nofun⟩⟩
  case bmu =>
    calc 2 ^ (2 * bitlen n) / n ≤ 2 ^ (bitlen n + 1) := barrettConstant_le_two_pow (bitlen_pos hne) hlo
      _ < 2 ^ (s.width + 32) := Nat.pow_lt_pow_right one_lt_two (by omega)

theorem Inv.finish : Inv s.finish :=
  ⟨h.legal, h.regs, h.compare, nofun, fun _ => rfl, h.errIff, h.codes, h.mont, h.bar⟩

theorem Inv.raise (e : Err) : Inv (s.raise e) :=
  ⟨h.legal, h.regs, h.compare, nofun, fun _ => rfl, ⟨fun _ => e.code_ne_zero, fun _ => rfl⟩, e.code_le, h.mont, h.bar⟩

theorem Inv.accept (w : Word) : Inv (s.accept w) :=
  ⟨h.legal, h.regs, h.compare, fun _ => ⟨rfl, rfl⟩, nofun, ⟨nofun, fun hne => absurd rfl hne⟩, Nat.zero_le 8, h.mont, h.bar⟩

theorem Inv.draw (hb : s.busy = true) (w : Word) (ws : List Word) :
    Inv { s with rnd := ws, drawn := s.drawn ++ [w], rndcnt := s.rndcnt + 1 } :=
  ⟨h.legal, h.regs, h.compare, h.inFlight, fun hidle => (nomatch hb.symm.trans hidle), h.errIff, h.codes, h.mont, h.bar⟩

theorem Inv.writeStatus (v : Word) : Inv (s.writeStatus v) := by
  refine ⟨h.legal, h.regs, h.compare, fun hb => ?_, h.idle, h.errIff, h.codes, h.mont, h.bar⟩
  obtain ⟨hdone, herr⟩ := h.inFlight hb
  exact ⟨by rw [State.writeStatus_done, hdone, Bool.false_and], herr⟩

end

theorem inv_resetOf {c : Config} (hc : c.Legal) : Inv (State.resetOf c) where
  legal := hc
  regs i := by
    rw [State.resetOf_reg]
    exact Nat.two_pow_pos _
  compare := nofun
  inFlight := nofun
  idle _ := rfl
  errIff := ⟨nofun, fun hne => absurd rfl hne⟩
  codes := Nat.zero_le 8
  mont := ⟨Nat.two_pow_pos _, Nat.two_pow_pos _, nofun, fun _ => ⟨rfl, rfl, rfl⟩⟩
  bar := ⟨Nat.two_pow_pos _, Nat.zero_le _, Nat.two_pow_pos _, nofun, fun _ => ⟨rfl, rfl, rfl⟩⟩

theorem Inv.rst {s : State} (h : Inv s) : Inv s.rst := (inv_resetOf h.legal).environment

/-! ## The results of the commands are in range -/

theorem gcd_lt {a b m : Nat} (ha : a < m) (hb : b < m) : Nat.gcd a b < m := by
  obtain rfl | hpos := Nat.eq_zero_or_pos a
  · rwa [Nat.gcd_zero_left]
  · exact (Nat.gcd_le_left b hpos).trans_lt ha

section
variable {s : State} (h : Inv s)
include h

theorem Inv.imm_lt {imm : Nat} (himm : immOk imm = true) : imm < 2 ^ s.width := by
  have hlimbs : 2 ≤ s.cfg.limbs := h.legal.1
  have hwidth : 16 ≤ s.width := by
    rw [State.width, Config.width]
    omega
  have hlt : imm < 2 ^ 16 := of_decide_eq_true (p := imm < 65536) himm
  exact hlt.trans_le (Nat.pow_le_pow_right two_pos hwidth)

theorem Inv.redc_lt_mn {t : Nat} (ht : t < s.mn * 2 ^ s.width) : redc s.width t s.mn < 2 ^ s.width :=
  (redc_lt ht).trans h.mont.1

theorem Inv.barReduce_lt {x : Nat} (hv : s.bvalid = true) (hx : x < 2 ^ (2 * s.bk)) :
    barReduce x s.bn s.bk s.bmu < 2 ^ s.width := by
  obtain ⟨hbn, -, -, hvalid, -⟩ := h.bar
  rw [h.bar.reduce_eq_mod hv hx]
  exact (Nat.mod_lt _ (hvalid hv).1).trans hbn

/-- Every command keeps the invariant. The cases are grouped by the checks its rule makes before its result is written. -/
theorem exec_keeps_inv {i : Instr} (hwf : i.wf = true) (hb : s.busy = true) : NextSatisfies Inv (exec i s) := by
  have hwrite (rd : Reg) {v : Nat} (hv : v < 2 ^ s.width) : NextSatisfies Inv (complete (s.setReg rd v)) :=
    .complete (h.setReg rd hv).finish
  have hresidue (a : Nat) {r : Reg} (hr : s.reg r ≠ 0) : a % s.reg r < 2 ^ s.width :=
    (Nat.mod_lt a (Nat.pos_of_ne_zero hr)).trans (h.regs r)
  cases i with
  | nop => exact .complete h.finish
  | li rd imm => exact hwrite rd (h.imm_lt hwf)
  | mov rd ra => exact hwrite rd (h.regs ra)
  | add rd _ _ | mul rd _ _ | shl rd _ _ => exact .writeExact h.raise rd _ fun hv => (h.setReg rd hv).finish
  | sub rd ra rb => exact .check h.raise .negative fun _ => hwrite rd ((Nat.sub_le _ _).trans_lt (h.regs ra))
  | mod rd ra rb => exact .check h.raise .zeroMod fun hn => hwrite rd (hresidue _ hn)
  | shr rd ra imm => exact hwrite rd ((Nat.div_le_self _ _).trans_lt (h.regs ra))
  | parity ra => exact .complete (h.setOdd _).finish
  | cmp ra rb => exact .complete (h.setCompare _ _).finish
  | gcd rd ra rb =>
    rw [exec_gcd]
    exact hwrite rd (gcd_lt (h.regs ra) (h.regs rb))
  | modinv rd ra rb =>
    by_cases hn : s.reg rb = 0
    · rw [exec_modinv_of_zero rd ra hn]
      exact .next (h.raise .zeroMod)
    · obtain hgcd | hgcd : 1 < Nat.gcd (s.reg ra) (s.reg rb) ∨ Nat.gcd (s.reg ra) (s.reg rb) = 1 := by
        have hpos := Nat.gcd_pos_of_pos_right (s.reg ra) (Nat.pos_of_ne_zero hn)
        omega
      · rw [exec_modinv_of_none rd hn (modInverse_eq_none hgcd)]
        exact .next (h.setNone true).finish
      · obtain ⟨v, hlt, -, hinv⟩ := modInverse_eq_some hn hgcd
        rw [exec_modinv_of_some rd hn hinv]
        exact .next ((h.setNone false).setReg rd (hlt.trans (h.regs rb))).finish
  | mulmod rd ra rb rc => exact .check h.raise .zeroMod fun hn => hwrite rd (hresidue _ hn)
  | powmod rd ra rb rc =>
    refine .check h.raise .zeroMod fun hn => hwrite rd ?_
    rw [powerMod_eq_pow_mod]
    exact hresidue _ hn
  | montset ra =>
    exact .check h.raise .zeroMod fun _ => .check h.raise .evenMod fun hodd =>
      .complete (h.setMont (h.regs ra) (Nat.mod_two_ne_zero.mp hodd)).finish
  | montmul rd ra rb =>
    refine .check h.raise .noCtx fun _ => .check h.raise .range fun hrange => hwrite rd (h.redc_lt_mn ?_)
    exact mul_lt_mul_two_pow h.mont.1 (by omega) (by omega)
  | tomont rd ra =>
    obtain ⟨hmn, hmr2, -, -⟩ := h.mont
    refine .check h.raise .noCtx fun _ => .check h.raise .range fun hrange => hwrite rd (h.redc_lt_mn ?_)
    exact Nat.mul_lt_mul'' (Nat.not_le.mp hrange) hmr2
  | frommont rd ra =>
    refine .check h.raise .noCtx fun _ => .check h.raise .range fun hrange => hwrite rd (h.redc_lt_mn ?_)
    exact lt_mul_two_pow_of_lt (Nat.not_le.mp hrange)
  | barset ra => exact .check h.raise .zeroMod fun hn => .complete (h.setBar (h.regs ra) hn).finish
  | barred rd ra =>
    exact .check h.raise .noCtx fun hv => .check h.raise .range fun hrange =>
      hwrite rd (h.barReduce_lt (Bool.not_eq_false _ ▸ hv) (Nat.not_le.mp hrange))
  | barmul rd ra rb =>
    refine .check h.raise .noCtx fun hv => .check h.raise .range fun hrange => hwrite rd ?_
    have hv : s.bvalid = true := Bool.not_eq_false _ ▸ hv
    exact h.barReduce_lt hv (h.bar.mul_lt_range hv (by omega) (by omega))
  | isprime ra imm => exact .drawing (h.draw hb) fun _ _ _ => .complete (h.setPrime _).finish
  | makeprime rd ra imm =>
    refine .check h.raise .param fun hcount => .drawing (h.draw hb) fun c rest hc => ?_
    obtain ⟨-, hlt⟩ := makePrime_bounds (by omega) hc
    exact .complete ((h.setReg rd (hlt.trans_le (Nat.pow_le_pow_right two_pos (by omega)))).setPrime true).finish
  | rand rd ra =>
    refine .check h.raise .param fun hcount => .drawing (h.draw hb) fun c rest hc => ?_
    obtain ⟨-, hlt⟩ := candidate_bounds (by omega) hc
    exact hwrite rd (hlt.trans_le (Nat.pow_le_pow_right two_pos (by omega)))

end

/-! ## Host accesses keep the invariant -/

theorem slot_eq_some {limbs base addr : Nat} {mk : Nat → Loc} {l : Loc} (h : slot limbs base addr mk = some l) :
    (addr - base) / 4 < limbs ∧ mk ((addr - base) / 4) = l := by
  unfold slot at h
  split at h
  case isTrue hlt => exact ⟨hlt, Option.some.inj h⟩
  case isFalse => cases h

/-- Only the addresses in the slot of `x[i]` are limbs of it. -/
theorem operand_of_locate {limbs addr j : Nat} {i : Reg} (h : locate limbs addr = some (.operand i j)) :
    0x10000 + 0x1000 * i.val ≤ addr ∧ addr < 0x11000 + 0x1000 * i.val ∧ j < limbs := by
  obtain hlow | ⟨hlo, hhi⟩ | hhigh : addr < 0x10000 ∨ (0x10000 ≤ addr ∧ addr < 0x20000) ∨ 0x20000 ≤ addr := by omega
  · simp only [locate, if_pos hlow] at h
    split_ifs at h
    all_goals cases h
  · simp (disch := omega) only [locate, if_neg, if_pos hhi] at h
    obtain ⟨hj, hloc⟩ := slot_eq_some h
    cases hloc
    exact ⟨by simp only; omega, by simp only; omega, hj⟩
  · simp (disch := omega) only [locate, if_neg] at h
    split_ifs at h
    all_goals cases (slot_eq_some h).2

/-- Replacing a limb inside a width keeps a number inside it. -/
theorem setLimb_lt {v j limbs : Nat} (w : Word) (hv : v < 2 ^ (32 * limbs)) (hj : j < limbs) :
    setLimb v j w < 2 ^ (32 * limbs) := by
  have hsplit : 2 ^ (32 * limbs) = 2 ^ (32 * (limbs - (j + 1))) * 2 ^ (32 * (j + 1)) := by
    rw [← pow_add]
    congr 1
    omega
  rw [hsplit, ← Nat.div_lt_iff_lt_mul (Nat.two_pow_pos _)] at hv ⊢
  rwa [setLimb_div_high]

theorem Inv.access {s : State} (h : Inv s) (a : Access) : Inv (s.access a) := by
  have houtcome := s.access_outcome a
  generalize s.access a = t at houtcome ⊢
  cases houtcome with
  | reply | drop | ctrl => exact h.environment
  | accept w => exact (h.accept w).environment
  | status v => exact (h.writeStatus v).environment
  | limb r ha hb hl =>
    obtain ⟨-, -, hj⟩ := operand_of_locate hl
    exact (h.setReg _ (setLimb_lt _ (h.regs _) hj)).environment

/-! ## The statements -/

/-- Settles O10: every clause of the invariant is met by zeros. -/
theorem invHoldsAfterReset : Obligations.InvHoldsAfterReset :=
  ⟨fun _ => inv_resetOf, inv_resetOf (by decide)⟩

/-- Settles O11: by the agent that moves; a command in flight is well-formed, since it was decoded. -/
theorem everyStepKeepsInv : Obligations.EveryStepKeepsInv := by
  intro s t h hstep
  cases step_move hstep with
  | @command ts i _ hb hd hexec =>
    have hs : Inv { s with turns := ts } := h.environment
    obtain ⟨hwf, -⟩ := eachCommandHasOneWord s.cmd i hd
    exact exec_keeps_inv hs hwf hb t hexec
  | illegal => exact h.environment.raise .illegal
  | host => exact h.environment.access _
  | deliver | wait => exact h.environment
  | rst => exact h.environment.rst

end Sys2Proof.Machine
end

section
/-! PROOFS. Who may change what (10_state.md R21, R22, R31, R32, R36, R41): the results each command may write, the one host write
that reaches a result, and the four commands that work beside the unit contexts. -/

namespace Sys2Proof.Machine

/-! ## The results a command may write -/

/-- No operand register, result flag or unit context differs. -/
structure SameResults (s t : State) : Prop where
  x : t.x = s.x
  flagEq : t.flagEq = s.flagEq
  flagLt : t.flagLt = s.flagLt
  flagOdd : t.flagOdd = s.flagOdd
  flagPrime : t.flagPrime = s.flagPrime
  flagNone : t.flagNone = s.flagNone
  mont : (t.mvalid, t.mn, t.mnp, t.mr2) = (s.mvalid, s.mn, s.mnp, s.mr2)
  bar : (t.bvalid, t.bn, t.bk, t.bmu) = (s.bvalid, s.bn, s.bk, s.bmu)

/-- A register differs only if it is the destination of `i`, a flag or a context only if `i` is one of the commands listed for it
(10_state.md R21, R22, R31, R32). -/
structure WritesOwn (i : Instr) (s t : State) : Prop where
  regs : ∀ j, t.reg j ≠ s.reg j → i.dest = some j
  compare : t.flagEq ≠ s.flagEq ∨ t.flagLt ≠ s.flagLt → ∃ ra rb, i = .cmp ra rb
  odd : t.flagOdd ≠ s.flagOdd → ∃ ra, i = .parity ra
  prime : t.flagPrime ≠ s.flagPrime → (∃ ra imm, i = .isprime ra imm) ∨ ∃ rd ra imm, i = .makeprime rd ra imm
  none : t.flagNone ≠ s.flagNone → ∃ rd ra rb, i = .modinv rd ra rb
  mont : (t.mvalid, t.mn, t.mnp, t.mr2) ≠ (s.mvalid, s.mn, s.mnp, s.mr2) → ∃ ra, i = .montset ra
  bar : (t.bvalid, t.bn, t.bk, t.bmu) ≠ (s.bvalid, s.bn, s.bk, s.bmu) → ∃ ra, i = .barset ra

section
variable {i : Instr} {s t u : State}

theorem SameResults.refl (s : State) : SameResults s s := ⟨rfl, rfl, rfl, rfl, rfl, rfl, rfl, rfl⟩

theorem SameResults.reg (h : SameResults s t) (j : Reg) : t.reg j = s.reg j := by
  rw [State.reg_eq, State.reg_eq, h.x]

theorem SameResults.writesOwn (h : SameResults s t) : WritesOwn i s t where
  regs j hne := absurd (h.reg j) hne
  compare hne := hne.elim (absurd h.flagEq) (absurd h.flagLt)
  odd := absurd h.flagOdd
  prime := absurd h.flagPrime
  none := absurd h.flagNone
  mont := absurd h.mont
  bar := absurd h.bar

theorem WritesOwn.refl (i : Instr) (s : State) : WritesOwn i s s := (SameResults.refl s).writesOwn

theorem WritesOwn.finish (h : WritesOwn i s u) : WritesOwn i s u.finish :=
  ⟨h.regs, h.compare, h.odd, h.prime, h.none, h.mont, h.bar⟩

theorem WritesOwn.raise (i : Instr) (s : State) (e : Err) : WritesOwn i s (s.raise e) :=
  SameResults.writesOwn ⟨rfl, rfl, rfl, rfl, rfl, rfl, rfl, rfl⟩

theorem WritesOwn.draw (i : Instr) (s : State) (w : Word) (ws : List Word) :
    WritesOwn i s { s with rnd := ws, drawn := s.drawn ++ [w], rndcnt := s.rndcnt + 1 } :=
  SameResults.writesOwn ⟨rfl, rfl, rfl, rfl, rfl, rfl, rfl, rfl⟩

theorem WritesOwn.setReg {rd : Reg} (h : WritesOwn i s u) (hd : i.dest = some rd) (v : Nat) : WritesOwn i s (u.setReg rd v) := by
  refine ⟨fun j hne => ?_, h.compare, h.odd, h.prime, h.none, h.mont, h.bar⟩
  rw [State.setReg_reg] at hne
  split at hne
  case isTrue hj => rw [hd, hj]
  case isFalse => exact h.regs j hne

theorem WritesOwn.setPrime (h : WritesOwn i s u) (b : Bool)
    (hi : (∃ ra imm, i = .isprime ra imm) ∨ ∃ rd ra imm, i = .makeprime rd ra imm) : WritesOwn i s (u.setPrime b) :=
  ⟨h.regs, h.compare, h.odd, fun _ => hi, h.none, h.mont, h.bar⟩

theorem WritesOwn.setNone (h : WritesOwn i s u) (b : Bool) (hi : ∃ rd ra rb, i = .modinv rd ra rb) :
    WritesOwn i s (u.setNone b) :=
  ⟨h.regs, h.compare, h.odd, h.prime, fun _ => hi, h.mont, h.bar⟩

end

/-- Every command writes only what is its own. The cases are grouped by the checks its rule makes before its result is written. -/
theorem exec_writesOwn (i : Instr) (s : State) : NextSatisfies (WritesOwn i s) (exec i s) := by
  have same := WritesOwn.refl i s
  have raised := WritesOwn.raise i s
  have drawn := WritesOwn.draw i s
  cases i with
  | nop => exact .complete same.finish
  | li _ _ | mov _ _ | shr _ _ _ | gcd _ _ _ => exact .complete (same.setReg rfl _).finish
  | add rd _ _ | mul rd _ _ | shl rd _ _ => exact .writeExact raised rd _ fun _ => (same.setReg rfl _).finish
  | sub _ _ _ => exact .check raised .negative fun _ => .complete (same.setReg rfl _).finish
  | mod _ _ _ | mulmod _ _ _ _ | powmod _ _ _ _ =>
    exact .check raised .zeroMod fun _ => .complete (same.setReg rfl _).finish
  | montmul _ _ _ | tomont _ _ | frommont _ _ | barred _ _ | barmul _ _ _ =>
    exact .check raised .noCtx fun _ => .check raised .range fun _ => .complete (same.setReg rfl _).finish
  | parity ra =>
    exact .complete (WritesOwn.finish ⟨same.regs, same.compare, fun _ => ⟨ra, rfl⟩, same.prime, same.none, same.mont, same.bar⟩)
  | cmp ra rb =>
    exact .complete (WritesOwn.finish ⟨same.regs, fun _ => ⟨ra, rb, rfl⟩, same.odd, same.prime, same.none, same.mont, same.bar⟩)
  | montset ra =>
    exact .check raised .zeroMod fun _ => .check raised .evenMod fun _ => .complete
      (WritesOwn.finish ⟨same.regs, same.compare, same.odd, same.prime, same.none, fun _ => ⟨ra, rfl⟩, same.bar⟩)
  | barset ra =>
    exact .check raised .zeroMod fun _ => .complete
      (WritesOwn.finish ⟨same.regs, same.compare, same.odd, same.prime, same.none, same.mont, fun _ => ⟨ra, rfl⟩⟩)
  | modinv rd ra rb =>
    have kept (b : Bool) := same.setNone b ⟨rd, ra, rb, rfl⟩
    by_cases hn : s.reg rb = 0
    · rw [exec_modinv_of_zero rd ra hn]
      exact .next (raised .zeroMod)
    · cases hinv : modInverse (s.reg ra) (s.reg rb) with
      | none =>
        rw [exec_modinv_of_none rd hn hinv]
        exact .next (kept true).finish
      | some v =>
        rw [exec_modinv_of_some rd hn hinv]
        exact .next ((kept false).setReg rfl v).finish
  | isprime ra imm => exact .drawing drawn fun b _ _ => .complete (same.setPrime b (.inl ⟨ra, imm, rfl⟩)).finish
  | makeprime rd ra imm =>
    exact .check raised .param fun _ => .drawing drawn fun c _ _ =>
      .complete ((same.setReg rfl c).setPrime true (.inr ⟨rd, ra, imm, rfl⟩)).finish
  | rand rd ra =>
    exact .check raised .param fun _ => .drawing drawn fun c _ _ => .complete (same.setReg rfl c).finish

/-! ## The results a step may write -/

/-- What a step other than reset may do to the results. -/
inductive ResultsStep (s t : State) : Prop
  | same (h : SameResults s t)
  /-- The complete step without error of the command in flight. -/
  | command {i : Instr} (hb : s.busy = true) (ht : t.busy = false) (herr : t.err = s.err) (hd : decode s.cmd = .ok i)
      (h : WritesOwn i s t)
  /-- A host write to an operand register. -/
  | host {addr : Nat} {v : Word} {ts : List Turn} {i : Reg} {j y : Nat} (hb : s.busy = false)
      (hturns : s.turns = .host (.write addr 4 v) :: ts) (hl : locate s.cfg.limbs addr = some (.operand i j))
      (h : SameResults (s.setReg i y) t)

theorem step_results {s t : State} (hrst : s.turns.head? ≠ some .rst) (h : step s = .next t) : ResultsStep s t := by
  cases step_move h with
  | @command ts i _ hb hd hexec =>
    have howns := exec_writesOwn i _ t hexec
    obtain ⟨u, hu, rfl⟩ | ⟨e, rfl⟩ | ⟨-, w, ws, -, rfl⟩ := exec_next_cases hexec
    · exact .command hb rfl hu.err_eq hd ⟨howns.regs, howns.compare, howns.odd, howns.prime, howns.none, howns.mont, howns.bar⟩
    · exact .same ⟨rfl, rfl, rfl, rfl, rfl, rfl, rfl, rfl⟩
    · exact .same ⟨rfl, rfl, rfl, rfl, rfl, rfl, rfl, rfl⟩
  | illegal | deliver | wait => exact .same ⟨rfl, rfl, rfl, rfl, rfl, rfl, rfl, rfl⟩
  | @host ts a hturns =>
    have houtcome := State.access_outcome { s with turns := ts } a
    generalize State.access { s with turns := ts } a = t at houtcome ⊢
    cases houtcome with
    | limb r ha hb hl =>
      rw [ha] at hturns
      exact .host hb hturns hl ⟨rfl, rfl, rfl, rfl, rfl, rfl, rfl, rfl⟩
    | _ => exact .same ⟨rfl, rfl, rfl, rfl, rfl, rfl, rfl, rfl⟩
  | rst hturns =>
    rw [hturns] at hrst
    exact absurd rfl hrst

/-! ## The unit contexts as a frame -/

/-- `s` with both unit contexts of `c`. -/
def State.withContexts (s c : State) : State :=
  { s with
    mvalid := c.mvalid, mn := c.mn, mnp := c.mnp, mr2 := c.mr2, bvalid := c.bvalid, bn := c.bn, bk := c.bk, bmu := c.bmu }

/-- The same outcome, its next state with the unit contexts of `c`. -/
def withContextsOf (c : State) : Result → Result
  | .next t => .next (t.withContexts c)
  | .fault f => .fault f
  | .refused r => .refused r

theorem drawing_withContexts {α : Type} (o : Option (α × List Word)) {s c : State} {k k' : α → Result}
    (h : ∀ a, k' a = withContextsOf c (k a)) : drawing o (s.withContexts c) k' = withContextsOf c (drawing o s k) := by
  match o with
  | some (a, rest) => exact h a
  | none =>
    rw [drawing_none, drawing_none]
    match hrnd : s.rnd with
    | [] =>
      have hrnd' : (s.withContexts c).rnd = [] := hrnd
      rw [drawWord_hold hrnd, drawWord_hold hrnd']
      rfl
    | w :: ws =>
      have hrnd' : (s.withContexts c).rnd = w :: ws := hrnd
      rw [drawWord_draw hrnd, drawWord_draw hrnd']
      rfl

theorem check_withContexts {p : Prop} [Decidable p] (e : Err) {s c : State} {r r' : Result} (h : r' = withContextsOf c r) :
    (if p then raiseError e (s.withContexts c) else r') = withContextsOf c (if p then raiseError e s else r) := by
  split
  · rfl
  · exact h

/-- The rules of the pipeline's commands name neither context. -/
theorem exec_withContexts {i : Instr} (hi : i.pipeline = true) (s c : State) :
    exec i (s.withContexts c) = withContextsOf c (exec i s) := by
  cases i with
  | mulmod _ _ _ _ | powmod _ _ _ _ => exact check_withContexts .zeroMod rfl
  | isprime _ _ => exact drawing_withContexts _ fun _ => rfl
  | makeprime _ _ _ => exact check_withContexts .param (drawing_withContexts _ fun _ => rfl)
  | _ => cases hi

/-! ## The statements -/

/-- Settles O26: of the moves that leave BUSY at 1 only a draw touches RNTE beyond DONE, OVR and IE. -/
theorem nothingTheCommandReadsChangesInFlight : Obligations.NothingTheCommandReadsChangesInFlight := by
  intro s t hb h ht
  cases step_move h with
  | command _ _ hexec =>
    obtain ⟨u, -, rfl⟩ | ⟨e, rfl⟩ | ⟨-, w, ws, -, rfl⟩ := exec_next_cases hexec
    · cases ht
    · cases ht
    · exact ⟨rfl, rfl, rfl, rfl, rfl, ⟨rfl, rfl, rfl, rfl, rfl⟩, ⟨rfl, rfl, rfl, rfl⟩, ⟨rfl, rfl, rfl, rfl⟩,
        .inr ⟨rfl, List.length_append⟩⟩
  | illegal | rst => cases ht
  | deliver | wait =>
    exact ⟨rfl, rfl, rfl, rfl, rfl, ⟨rfl, rfl, rfl, rfl, rfl⟩, ⟨rfl, rfl, rfl, rfl⟩, ⟨rfl, rfl, rfl, rfl⟩, .inl ⟨rfl, rfl⟩⟩
  | @host ts a =>
    have houtcome := State.access_outcome { s with turns := ts } a
    generalize State.access { s with turns := ts } a = t at houtcome ⊢
    cases houtcome with
    | accept _ _ hidle | limb _ _ hidle => cases hb.symm.trans hidle
    | reply | drop | status | ctrl =>
      exact ⟨rfl, rfl, rfl, rfl, rfl, ⟨rfl, rfl, rfl, rfl, rfl⟩, ⟨rfl, rfl, rfl, rfl⟩, ⟨rfl, rfl, rfl, rfl⟩, .inl ⟨rfl, rfl⟩⟩

/-- Settles O27: a flag that changes is written by the command in flight, as it completes. -/
theorem flagsChangeOnlyByTheirCommands : Obligations.FlagsChangeOnlyByTheirCommands := by
  intro s t hrst h
  cases step_results hrst h with
  | same hsame | host _ _ _ hsame =>
    exact ⟨fun hne => absurd hne (by simp [hsame.flagEq, hsame.flagLt]), absurd hsame.flagOdd, absurd hsame.flagPrime,
      absurd hsame.flagNone⟩
  | command hb ht herr hd howns =>
    refine ⟨fun hne => ⟨hb, ht, herr, ?compare⟩, fun hne => ⟨hb, ht, herr, ?odd⟩, fun hne => ⟨hb, ht, herr, ?prime⟩,
      fun hne => ⟨hb, ht, herr, ?none⟩⟩
    case compare =>
      obtain ⟨ra, rb, rfl⟩ := howns.compare hne
      exact ⟨ra, rb, hd⟩
    case odd =>
      obtain ⟨ra, rfl⟩ := howns.odd hne
      exact ⟨ra, hd⟩
    case prime =>
      obtain ⟨ra, imm, rfl⟩ | ⟨rd, ra, imm, rfl⟩ := howns.prime hne
      · exact .inl ⟨ra, imm, hd⟩
      · exact .inr ⟨rd, ra, imm, hd⟩
    case none =>
      obtain ⟨rd, ra, rb, rfl⟩ := howns.none hne
      exact ⟨rd, ra, rb, hd⟩

/-- Settles O28: a context that changes is written by its set-up command, as it completes. -/
theorem contextsChangeOnlyByTheirSetUp : Obligations.ContextsChangeOnlyByTheirSetUp := by
  intro s t hrst h
  cases step_results hrst h with
  | same hsame | host _ _ _ hsame => exact ⟨absurd hsame.mont, absurd hsame.bar⟩
  | command hb ht herr hd howns =>
    refine ⟨fun hne => ⟨hb, ht, ?mont⟩, fun hne => ⟨hb, ht, ?bar⟩⟩
    case mont =>
      obtain ⟨ra, rfl⟩ := howns.mont hne
      exact ⟨ra, hd⟩
    case bar =>
      obtain ⟨ra, rfl⟩ := howns.bar hne
      exact ⟨ra, hd⟩

/-- Settles O29: a register that changes is the one of the host's window slot or the destination of the command in flight. -/
theorem registersChangeOnlyByHostOrDestination : Obligations.RegistersChangeOnlyByHostOrDestination := by
  intro s t i hrst h hne
  cases step_results hrst h with
  | same hsame => exact absurd (hsame.reg i) hne
  | command hb ht herr hd howns => exact .inr ⟨hb, ht, herr, _, hd, howns.regs i hne⟩
  | @host addr v ts k j y hb hturns hl hsame =>
    rw [hsame.reg, State.setReg_reg] at hne
    split at hne
    case isTrue hk =>
      obtain ⟨hlo, hhi, -⟩ := operand_of_locate hl
      rw [hk] at hlo hhi
      exact .inl ⟨hb, addr, v, ts, hturns, hlo, hhi⟩
    case isFalse => exact absurd rfl hne

/-- Settles O30: the engine's step of the four commands is the same up to the contexts it carries along. -/
theorem pipelineIgnoresUnitContexts : Obligations.PipelineIgnoresUnitContexts := by
  intro i s mv mn mnp mr2 bv bn bk bmu hi
  have hexec := exec_withContexts hi s
    { s with mvalid := mv, mn := mn, mnp := mnp, mr2 := mr2, bvalid := bv, bn := bn, bk := bk, bmu := bmu }
  refine hexec.trans ?_
  cases exec i s <;> rfl

end Sys2Proof.Machine
end

section
/-! PROOFS. The control registers and the edges of the register map (10_state.md R23, R24, R26 to R30, R33, 20_memory.md R55, R59):
each bit of STATUS, what the other control registers read, and the addresses at which no location lies. -/

namespace Sys2Proof.Machine

/-! ## STATUS (R23) -/

theorem getLsbD_bitAt (b : Bool) {k : Nat} (hk : k < 32) (i : Nat) : (bitAt b k).getLsbD i = (decide (i = k) && b) := by
  rw [bitAt, BitVec.getLsbD_shiftLeft, BitVec.getLsbD_ofNat, Nat.testBit_bool_toNat]
  obtain hlt | rfl | hgt := Nat.lt_trichotomy i k
  · simp [hlt, hlt.ne]
  · simp [hk]
  · simp [hgt.ne', Nat.sub_ne_zero_of_lt hgt]

/-- The bits of STATUS, each by its place. -/
theorem State.statusWord_getLsbD (s : State) (i : Nat) : s.statusWord.getLsbD i =
    (decide (i = 0) && s.busy || decide (i = 1) && s.done || decide (i = 2) && s.err || decide (i = 3) && s.ovr ||
      decide (i = 8) && s.flagEq || decide (i = 9) && s.flagLt || decide (i = 10) && s.flagOdd ||
      decide (i = 11) && s.flagPrime || decide (i = 12) && s.flagNone || decide (i = 16) && s.mvalid ||
      decide (i = 17) && s.bvalid) := by
  simp (disch := decide) only [State.statusWord, BitVec.getLsbD_or, getLsbD_bitAt]

/-! ## The registers of more than one bit (R26, R28, R30) -/

theorem configWord_toNat {c : Config} (hc : c.limbs < 2 ^ 16) : (configWord c).toNat = 16 * 2 ^ 16 + c.limbs := by
  have hlow : BitVec.ofNat 32 (c.limbs % 2 ^ 16) = BitVec.ofNat 32 c.limbs := by rw [Nat.mod_eq_of_lt hc]
  have hconst : ((16 <<< 16 : Nat) : Word).toNat = 2 ^ 16 * 16 := by decide
  rw [configWord, hlow, BitVec.toNat_or, BitVec.toNat_ofNat, hconst, Nat.mod_eq_of_lt (by omega), Nat.or_comm,
    ← Nat.two_pow_add_eq_or_of_lt hc]
  omega

/-- A read-only control register ignores a write. -/
theorem State.memWrite_readOnly {s : State} {addr : Nat} {l : Loc} (hl : locate s.cfg.limbs addr = some l)
    (hw : l.isWindow = false) (hlt : addr < 0x40000) (ha : addr % 4 = 0) (hstore : ∀ v, s.store l v = s) (v : Word) :
    s.memWrite addr 4 v = (s, .writeOk) := by
  rw [State.memWrite_ok (State.target_control hl hw hlt ha), hstore]

/-! ## Where nothing is mapped (R55, R59) -/

theorem slot_beyond {limbs base addr : Nat} (mk : Nat → Loc) (h : limbs ≤ (addr - base) / 4) : slot limbs base addr mk = none :=
  if_neg (Nat.not_lt.mpr h)

theorem locate_eq_none_between {limbs addr : Nat} (hlo : 0x20 ≤ addr) (hhi : addr < 0x10000) : locate limbs addr = none := by
  simp (disch := omega) only [locate, if_neg, if_pos]

theorem locate_eq_none_above {limbs addr : Nat} (hlo : 0x24000 ≤ addr) : locate limbs addr = none := by
  simp (disch := omega) only [locate, if_neg]

/-- Beyond the last limb of a register of `limbs` limbs. -/
theorem locate_eq_none_beyond {limbs addr : Nat} (hlo : 0x10000 ≤ addr) (hhi : addr < 0x23000)
    (hj : limbs ≤ addr % 0x1000 / 4) : locate limbs addr = none := by
  obtain h | h | h | h : addr < 0x20000 ∨ (0x20000 ≤ addr ∧ addr < 0x21000) ∨ (0x21000 ≤ addr ∧ addr < 0x22000) ∨
    0x22000 ≤ addr := by omega
  all_goals
    simp (disch := omega) only [locate, if_neg, if_pos]
    exact slot_beyond _ (by omega)

theorem locate_eq_none_beyond_bmu {limbs addr : Nat} (hlo : 0x23000 ≤ addr) (hhi : addr < 0x24000)
    (hj : limbs + 1 ≤ addr % 0x1000 / 4) : locate limbs addr = none := by
  simp (disch := omega) only [locate, if_neg, if_pos]
  exact slot_beyond _ (by omega)

theorem State.target_unmapped {s : State} {addr : Nat} (hl : locate s.cfg.limbs addr = none) (hlt : addr < 0x40000) :
    s.target addr 4 = .error .busError := by
  cases ht : s.target addr 4 with
  | error r => rw [State.target_error ht hlt]
  | ok l =>
    obtain ⟨-, -, -, hmapped, -⟩ := State.target_ok ht
    cases hl.symm.trans hmapped

theorem State.target_notSeen (s : State) {addr : Nat} (n : Nat) (h : 0x40000 ≤ addr) : s.target addr n = .error .notSeen :=
  if_pos h

/-! ## The statements -/

/-- Settles O14: the bits of the word read, one by one, and the two fields that a write of 1 clears. -/
theorem statusReadsItsFieldsAndClearsByWritingOne : Obligations.StatusReadsItsFieldsAndClearsByWritingOne := by
  intro s
  have ht : s.target 0x004 4 = .ok .status := State.target_control rfl rfl (by decide) (by decide)
  refine ⟨⟨s.statusWord, State.memRead_ok ht, ?_⟩, fun v => ⟨s.writeStatus v, s.memWrite_status v, rfl, ?done, ?ovr⟩⟩
  case done =>
    rw [State.writeStatus_done]
    cases v.getLsbD 1 <;> simp
  case ovr =>
    rw [State.writeStatus_ovr]
    cases v.getLsbD 3 <;> simp
  simp only [State.statusWord_getLsbD]
  refine ⟨?_, ?_, ?_, ?_, ?_, ?_, ?_, ?_, ?_, ?_, ?_, ?reserved⟩
  case reserved =>
    intro k hk
    have hplaces : k ∉ [0, 1, 2, 3, 8, 9, 10, 11, 12, 16, 17] := by
      simp only [List.mem_cons, List.not_mem_nil, or_false] at hk ⊢
      omega
    simp only [List.mem_cons, List.not_mem_nil, or_false, not_or] at hplaces
    simp [hplaces]
  all_goals simp

/-- Settles O16: under the invariant CONFIG and BARK are wide enough for L and BK. -/
theorem controlRegistersReadAndIgnoreWrites : Obligations.ControlRegistersReadAndIgnoreWrites := by
  intro s h
  obtain ⟨-, hlimbs⟩ := h.legal
  obtain ⟨-, hbk, -⟩ := h.bar
  have hread {addr : Nat} (l : Loc) (hl : locate s.cfg.limbs addr = some l) (hw : l.isWindow = false) (hlt : addr < 0x40000)
      (ha : addr % 4 = 0) : s.memRead addr 4 = .readOk (s.load l) := State.memRead_ok (State.target_control hl hw hlt ha)
  refine ⟨hread .cmd rfl rfl (by decide) (by decide), ⟨_, hread .errcode rfl rfl (by decide) (by decide), ?errcode⟩,
    hread .rndcnt rfl rfl (by decide) (by decide), ⟨_, hread .config rfl rfl (by decide) (by decide), ?config⟩,
    hread .montnp rfl rfl (by decide) (by decide), ⟨_, hread .bark rfl rfl (by decide) (by decide), ?bark⟩, ?writes⟩
  case errcode =>
    have hlt := s.errcode.isLt
    simp only [State.load, BitVec.truncate_eq_setWidth, BitVec.toNat_setWidth]
    omega
  case config =>
    rw [State.width_div_limb]
    exact configWord_toNat (by omega)
  case bark =>
    rw [State.width, Config.width] at hbk
    simp only [State.load, BitVec.toNat_ofNat]
    omega
  case writes =>
    rw [List.forall_mem_cons, List.forall_mem_cons, List.forall_mem_cons, List.forall_mem_cons, List.forall_mem_singleton]
    exact ⟨State.memWrite_readOnly (l := .errcode) rfl rfl (by decide) (by decide) fun _ => rfl,
      State.memWrite_readOnly (l := .rndcnt) rfl rfl (by decide) (by decide) fun _ => rfl,
      State.memWrite_readOnly (l := .config) rfl rfl (by decide) (by decide) fun _ => rfl,
      State.memWrite_readOnly (l := .montnp) rfl rfl (by decide) (by decide) fun _ => rfl,
      State.memWrite_readOnly (l := .bark) rfl rfl (by decide) (by decide) fun _ => rfl⟩

/-- Settles O19: in each range no location is mapped, and from 0x40000 on the map is not asked. -/
theorem unmappedAccessesAreBusErrors : Obligations.UnmappedAccessesAreBusErrors := by
  intro s addr n v
  refine ⟨fun _ hrange => ?unmapped, fun h => ?notSeen⟩
  case unmapped =>
    rw [State.width_div_limb] at hrange
    have hl : locate s.cfg.limbs addr = none := by
      obtain ⟨hlo, hhi⟩ | ⟨hlo, hhi, hj⟩ | ⟨hlo, hhi, hj⟩ | ⟨hlo, -⟩ := hrange
      · exact locate_eq_none_between hlo hhi
      · exact locate_eq_none_beyond hlo hhi hj
      · exact locate_eq_none_beyond_bmu hlo hhi hj
      · exact locate_eq_none_above hlo
    have ht : s.target addr 4 = .error .busError := State.target_unmapped hl (by omega)
    exact ⟨State.memRead_error ht, State.memWrite_error ht⟩
  case notSeen =>
    have ht := s.target_notSeen n h
    exact ⟨State.memRead_error ht, State.memWrite_error ht⟩

end Sys2Proof.Machine
end
